-- ==== Sys2Proof/Word.lean ====
section
/-! DEFINITION. The widths of the spec: bytes of the packed buffer, 12-bit grayscale values, 16-bit operands,
the 35-bit command word and the 18-bit response word (00_scope.md R5, R7, R8; 30_encoding.md R54, R60). -/

namespace Sys2Proof

/-- One byte of the packed buffer (00_scope.md R5). -/
abbrev Byte := BitVec 8

/-- A grayscale value as it is stored, `GS_BITS = 12` bits (00_scope.md R5). -/
abbrev Gray := BitVec 12

/-- A command operand: `CH_W = VAL_W = DEV_W = 16` bits, unsigned (00_scope.md R7). -/
abbrev Half := BitVec 16

/-- A command word, format `CMD35` (30_encoding.md R54). -/
abbrev CommandWord := BitVec 35

/-- A response word, format `RSP18` (30_encoding.md R60). -/
abbrev ResponseWord := BitVec 18

end Sys2Proof
end

