-- ==== Sys2Proof/Config.lean ====
section
/-! DEFINITION. What the spec fixes as constants (00_scope.md R5), the open parameter `D_MAX` (R9), and the free
values: constants without a body, so that nothing can be proved of what they are. -/

namespace Sys2Proof

/-- One bit of the transmitter port's answer: `ok` or `fail` (30_encoding.md R67). -/
inductive TxAnswer where
  | ok
  | fail
  deriving DecidableEq, Repr

/-- What the transmitter does about the byte presented to it: it answers, or it has not answered yet when the
step ends. `notYet` is the row `wait(i)` to `wait(i)` of 41_chain_ops.md R90. -/
inductive TxReply where
  | answer (r : TxAnswer)
  | notYet
  deriving DecidableEq, Repr, Inhabited

namespace Config

/-- `CH_PER_DEV`: channels of one device (00_scope.md R5). -/
def channelsPerDevice : Nat := 24

/-- `BYTES_PER_DEV`: bytes of buffer for one device (00_scope.md R5). -/
def bytesPerDevice : Nat := 36

/-- `GS_MAX`: the largest grayscale value (00_scope.md R5). -/
def grayMax : Nat := 4095

/-- `SENTINEL`: GET's data for an invalid channel (00_scope.md R8). -/
def sentinel : Half := 0xFFFF

/-- The free choice behind `D_MAX`; no body, so every bound from 1 to 2730 is admitted (notes/assumptions/4.md). -/
opaque dMaxChoice : Fin 2730

/-- `D_MAX`, the largest device count the buffer RAM can hold: an open parameter with `1 <= D_MAX <= 2730`
(00_scope.md R9, decision D3). -/
def dMax : Nat := dMaxChoice.val + 1

/-- The transmitter's reply number `n` when no reply is listed in the state: a free draw per call
(00_scope.md R13, 93_implementation_defined.md U8, U10; notes/assumptions/2.md). -/
opaque txReply : Nat → TxReply

/-- The content of the register `D` after TEARDOWN, draw number `n`: any value (41_chain_ops.md R82,
93_implementation_defined.md U6; notes/assumptions/6.md). -/
opaque staleDevices : Nat → Half

end Config

end Sys2Proof
end

