-- ==== Sys2Proof/Syntax.lean ====
section
/-! DEFINITION. The commands of the block, one constructor for each row of spec/opcode_table.json, with their
assembler text (30_encoding.md R54 to R58, R69). -/

namespace Sys2Proof

/-- A command with the operands it uses (30_encoding.md R55). The fields a command ignores (R57) are not kept. -/
inductive Instr where
  /-- INIT `D` (R79): `d` is the device count. -/
  | init (count : Half)
  /-- TEARDOWN (R82). -/
  | teardown
  /-- SET `c, v` (R71): `a` is the channel address, `d` the grayscale value. -/
  | set (c v : Half)
  /-- GET `c` (R74): `a` is the channel address. -/
  | get (c : Half)
  /-- FLUSH (R85). -/
  | flush
  /-- ENABLE_OUTPUTS (R91). -/
  | enableOutputs
  /-- DISABLE_OUTPUTS (R93). -/
  | disableOutputs
  /-- The reserved encoding `op = 7` (R58): a row of the table that selects no command. -/
  | reserved
  deriving DecidableEq, Repr

/-- The row's mnemonic in spec/opcode_table.json. -/
def Instr.mnemonic : Instr → String
  | .init _ => "INIT"
  | .teardown => "TEARDOWN"
  | .set _ _ => "SET"
  | .get _ => "GET"
  | .flush => "FLUSH"
  | .enableOutputs => "ENABLE_OUTPUTS"
  | .disableOutputs => "DISABLE_OUTPUTS"
  | .reserved => "(reserved)"

/-- The command as the spec writes it, operands in decimal (30_encoding.md R69). -/
def Instr.assembly (i : Instr) : String :=
  match i with
  | .init n => i.mnemonic ++ " " ++ toString n.toNat
  | .set c v => i.mnemonic ++ " " ++ toString c.toNat ++ ", " ++ toString v.toNat
  | .get c => i.mnemonic ++ " " ++ toString c.toNat
  | .teardown => i.mnemonic
  | .flush => i.mnemonic
  | .enableOutputs => i.mnemonic
  | .disableOutputs => i.mnemonic
  | .reserved => i.mnemonic

end Sys2Proof
end

