-- ==== Sys2Proof/WellFormed.lean ====
section
/-! DEFINITION. Which terms of Instr are commands: "every other 35-bit word is a well-formed command"
(30_encoding.md R58), other than the words with `op = 7`. The widths of the operands are in their types. -/

namespace Sys2Proof

/-- The one check the spec gives: the opcode selects a command (30_encoding.md R58). -/
def Instr.WellFormed : Instr → Bool
  | .init _ => true
  | .teardown => true
  | .set _ _ => true
  | .get _ => true
  | .flush => true
  | .enableOutputs => true
  | .disableOutputs => true
  | .reserved => false

end Sys2Proof
end

