-- ==== Sys2Proof/Decode.lean ====
section
/-! DEFINITION. The command word `CMD35 = op[34:32], a[31:16], d[15:0]` (30_encoding.md R54 to R59): the decoder,
total on the 35-bit words (the reserved opcode by its own constructor), and the encoder. -/

namespace Sys2Proof

/-- Field `op`, bits 34:32 (30_encoding.md R54). -/
def opField (w : CommandWord) : BitVec 3 := w.extractLsb' 32 3

/-- Field `a`, bits 31:16, the address operand (30_encoding.md R54). -/
def aField (w : CommandWord) : Half := w.extractLsb' 16 16

/-- Field `d`, bits 15:0, the data operand (30_encoding.md R54). -/
def dField (w : CommandWord) : Half := w.extractLsb' 0 16

/-- The command a word selects, from `op` alone (30_encoding.md R55, R56); ignored fields are dropped (R57), and
`op = 7` is the reserved row (R58). -/
def decode (w : CommandWord) : Instr :=
  match (opField w).toNat with
  | 0 => .init (dField w)
  | 1 => .teardown
  | 2 => .set (aField w) (dField w)
  | 3 => .get (aField w)
  | 4 => .flush
  | 5 => .enableOutputs
  | 6 => .disableOutputs
  | _ => .reserved

/-- The opcode number of a command (30_encoding.md R56, R58). -/
def opcode : Instr → BitVec 3
  | .init _ => 0
  | .teardown => 1
  | .set _ _ => 2
  | .get _ => 3
  | .flush => 4
  | .enableOutputs => 5
  | .disableOutputs => 6
  | .reserved => 7

/-- The word `CMD = op, a, d` put together from its three fields (30_encoding.md R54). -/
def commandWord (op : BitVec 3) (a d : Half) : CommandWord := op ++ (a ++ d)

/-- The word of a command, zeros in the fields it ignores (30_encoding.md R54 to R57). -/
def encode (i : Instr) : CommandWord :=
  match i with
  | .init n => commandWord (opcode i) 0 n
  | .set c v => commandWord (opcode i) c v
  | .get c => commandWord (opcode i) c 0
  | .teardown => commandWord (opcode i) 0 0
  | .flush => commandWord (opcode i) 0 0
  | .enableOutputs => commandWord (opcode i) 0 0
  | .disableOutputs => commandWord (opcode i) 0 0
  | .reserved => commandWord (opcode i) 0 0

/-- The bits of the word that a command's row uses: `op`, and the letters `a` and `d` of the row's encoding string
in spec/opcode_table.json (30_encoding.md R56, R57). -/
def usedBits : Instr → CommandWord
  | .init _ => commandWord 7 0 0xFFFF
  | .teardown => commandWord 7 0 0
  | .set _ _ => commandWord 7 0xFFFF 0xFFFF
  | .get _ => commandWord 7 0xFFFF 0
  | .flush => commandWord 7 0 0
  | .enableOutputs => commandWord 7 0 0
  | .disableOutputs => commandWord 7 0 0
  | .reserved => commandWord 7 0 0

/-- The command word in a row's bits. The word has 35 bits and no byte order: the bits that round 35 up to whole
bytes have no wire at the port (notes/assumptions/15.md). -/
def portWord (nbits w : Nat) : CommandWord := BitVec.ofNat 35 (w % 2 ^ nbits)

/-- What the decoder reads from a row's bits; every 35-bit word decodes, the reserved ones to `reserved`. -/
def decodeTableWord (nbits w : Nat) : Option Instr := some (decode (portWord nbits w))

end Sys2Proof
end

