-- ==== Sys2Proof/Machine/State.lean ====
section
/-! DEFINITION. The state of the block (10_state.md R15 to R32), what it emits and returns (00_scope.md R12,
30_encoding.md R60), what the outside gives it (70_reset_and_hazards.md R140), and the state after reset (R30). -/

namespace Sys2Proof.Machine

/-- The handle's life-cycle state (10_state.md R16). -/
inductive Mode where
  | uninitialized
  | ready
  deriving DecidableEq, Repr

/-- The level of a pin: 0 is low, 1 is high (30_encoding.md R68). -/
inductive Level where
  | low
  | high
  deriving DecidableEq, Repr

/-- The two output pins (30_encoding.md R68). -/
inductive Pin where
  /-- The latch strobe (10_state.md R19). -/
  | latch
  /-- The output blank (10_state.md R20). -/
  | blank
  deriving DecidableEq, Repr

/-- An output event: a pin write, or a byte handed to the transmitter with its answer (00_scope.md R12). -/
inductive Event where
  | pin (p : Pin) (level : Level)
  | tx (b : Byte) (r : TxAnswer)
  deriving DecidableEq, Repr

/-- The result code of a command (30_encoding.md R62). -/
inductive Status where
  | ok
  | invalidArgument
  | resourceExhausted
  | transportError
  deriving DecidableEq, Repr

/-- A response: status and data (30_encoding.md R60). -/
structure Response where
  status : Status
  data : Half
  deriving DecidableEq, Repr

/-- What the host does at its port: it presents a command word, or it asserts the reset input
(70_reset_and_hazards.md R140). -/
inductive HostInput where
  | command (w : CommandWord)
  /-- Reset asserted when the step begins, also while a FLUSH waits (R125). -/
  | reset
  /-- Reset asserted between `Pin(LATCH,1)` and `Pin(LATCH,0)` of the FLUSH before it (R126); once that FLUSH is over
  without a pulse, or with none in flight, as `reset` (notes/assumptions/14.md). -/
  | resetInPulse
  deriving DecidableEq, Repr

/-- The progress of a FLUSH that has not returned: the states `send(i)`, `wait(i)` and `pulse` of
41_chain_ops.md R90 (10_state.md R27). -/
inductive Flight where
  /-- Byte `i` is the next to present. -/
  | send (i : Nat)
  /-- Byte `i` is presented and not yet answered. -/
  | wait (i : Nat)
  /-- All bytes are sent and LATCH is high. -/
  | pulse
  deriving DecidableEq, Repr

/-- The packed buffer as data: address and byte, addresses strictly rising, no zero byte listed. What an unlisted
index reads as is `Sys2Proof.Machine.unlistedByte`. -/
abbrev Memory := List Host.Cell

/-- The block and its inputs and observations. INVENTORY.md names the rule of each field. -/
structure State where
  /-- `mode` (10_state.md R16). -/
  mode : Mode
  /-- The register `D` (10_state.md R17). -/
  devices : Half
  /-- The packed buffer `buf` (10_state.md R18). -/
  buf : Memory
  /-- The register behind the LATCH pin (10_state.md R19). -/
  latch : Level
  /-- The register behind the BLANK pin (10_state.md R20). -/
  blank : Level
  /-- The hidden state of a FLUSH (10_state.md R27). -/
  flight : Option Flight
  /-- The output event trace since reset, oldest first (00_scope.md R12). -/
  trace : List Event
  /-- The responses since reset, oldest first (30_encoding.md R60). -/
  responses : List Response
  /-- The model's own: what the host will still do, first input first (notes/assumptions/1.md). -/
  host : List HostInput
  /-- The model's own: the transmitter's next replies, first reply first (notes/assumptions/2.md). -/
  replies : List TxReply
  /-- The model's own: how many free values have been drawn (notes/assumptions/2.md). -/
  draws : Nat
  deriving DecidableEq, Repr

/-- Why the block stops with a fault. -/
inductive Fault where
  /-- A read or write of a byte index that does not exist: outside `0 .. 36*D - 1`, or while there is no buffer.
  Raised by `memRead` and `memWrite` alone; the rules never make such an access (00_scope.md, notation of MemRead).
  Safe: it stops. No command raises it; only a FLUSH in flight in a state that no run reaches can. -/
  | bufferIndexOutOfRange
  deriving DecidableEq, Repr

/-- Why a command has no step: the treatment `refuse` of 93_implementation_defined.md. Each is safe: nothing is
claimed of a run that holds one. -/
inductive Refusal where
  /-- Raised by `exec` for an instruction without a meaning. None is left. -/
  | notModelled (mnemonic : String)
  /-- SET, GET, FLUSH, ENABLE_OUTPUTS or DISABLE_OUTPUTS while uninitialized (U1, 41_chain_ops.md R96). -/
  | commandWhileUninitialized
  /-- TEARDOWN while uninitialized (U2, 41_chain_ops.md R96). -/
  | teardownWhileUninitialized
  /-- INIT with a device count of zero (U3, 41_chain_ops.md R79). -/
  | initOfZeroDevices
  /-- INIT while ready (U4, 41_chain_ops.md R96). -/
  | initWhileReady
  /-- The reserved opcode `op = 7` (U5, 30_encoding.md R58). -/
  | reservedOpcode
  deriving DecidableEq, Repr

/-- The machine right after reset (10_state.md R30): no buffer, LATCH low, BLANK high, nothing emitted, nothing in
flight. DESIGN CHOICE: the spec leaves `D` unspecified, and the model names 0 (notes/assumptions/5.md); the model's own
fields are empty. -/
def State.reset : State where
  mode := .uninitialized
  devices := 0
  buf := []
  latch := .low
  blank := .high
  flight := none
  trace := []
  responses := []
  host := []
  replies := []
  draws := 0

end Sys2Proof.Machine
end

