-- ==== Sys2Proof/Machine/Flags.lean ====
section
/-! DEFINITION. The block has no flags (10_state.md R25); their nearest analogue is the response status
(92_eei_decisions.md D9). Here stand the bits of the response word (30_encoding.md R60 to R62) and of the two
boundary formats (R67, R68). -/

namespace Sys2Proof.Machine

/-- The status codes (30_encoding.md R62). -/
def statusCode : Status → BitVec 2
  | .ok => 0
  | .invalidArgument => 1
  | .resourceExhausted => 2
  | .transportError => 3

/-- `RSP = status[1:0], data[15:0]` (30_encoding.md R60). -/
def responseWord (r : Response) : ResponseWord := statusCode r.status ++ r.data

/-- The transmitter port's answer bit: `ok = 1`, `fail = 0` (30_encoding.md R67). -/
def answerBit : TxAnswer → BitVec 1
  | .ok => 1
  | .fail => 0

/-- The level of a pin as a bit: low is 0, high is 1 (30_encoding.md R68). -/
def levelBit : Level → BitVec 1
  | .low => 0
  | .high => 1

end Sys2Proof.Machine
end

