-- ==== Sys2Proof/Machine/Operands.lean ====
section
/-! DEFINITION. Operand assembly (30_encoding.md R64 to R66), the sizes and addresses it is checked against
(00_scope.md R6, 20_memory.md R34 to R36), and the split of a value into its byte and its nibble (20_memory.md R37,
R38). Every quantity is unsigned and no operation wraps (40_buffer_ops.md R77), so sizes and indices are Nat. -/

namespace Sys2Proof.Machine

/-- `N = 24 x D`, the channel count (00_scope.md R6). -/
def numChannels (devices : Half) : Nat := Config.channelsPerDevice * devices.toNat

/-- `L = 36 x D`, the buffer's length in bytes (00_scope.md R6). -/
def bufLength (devices : Half) : Nat := Config.bytesPerDevice * devices.toNat

/-- A channel address is valid exactly when `c < N` (20_memory.md R34). -/
def validChannel (devices c : Half) : Bool := decide (c.toNat < numChannels devices)

/-- `base = floor(3 x c / 2)` (20_memory.md R36), on unbounded integers (40_buffer_ops.md R77). -/
def baseIndex (c : Nat) : Nat := 3 * c / 2

/-- `v12 = min(v, 4095)`: saturation, not truncation (30_encoding.md R64). -/
def clamp (v : Half) : Gray := BitVec.ofNat 12 (min v.toNat Config.grayMax)

/-- `b[3:0]`. -/
def lowNibble (b : Byte) : BitVec 4 := b.extractLsb' 0 4

/-- `b[7:4]`. -/
def highNibble (b : Byte) : BitVec 4 := b.extractLsb' 4 4

/-- Even channel, the byte at `base`: `v[7:0]` (20_memory.md R37). -/
def evenByte (v : Gray) : Byte := v.extractLsb' 0 8

/-- Even channel, the byte at `base+1`: the neighbour's high nibble of `t` kept, `v[11:8]` below it
(20_memory.md R37). -/
def evenShared (t : Byte) (v : Gray) : Byte := highNibble t ++ v.extractLsb' 8 4

/-- Odd channel, the byte at `base`: `v[3:0]` above the neighbour's low nibble of `t`, which is kept
(20_memory.md R38). -/
def oddShared (t : Byte) (v : Gray) : Byte := v.extractLsb' 0 4 ++ lowNibble t

/-- Odd channel, the byte at `base+1`: `v[11:4]` (20_memory.md R38). -/
def oddByte (v : Gray) : Byte := v.extractLsb' 4 8

/-- GET's assembly for an even channel: `b1[3:0]` above `b0[7:0]` (40_buffer_ops.md R74). -/
def evenValue (b0 b1 : Byte) : Gray := lowNibble b1 ++ b0

/-- GET's assembly for an odd channel: `b1[7:0]` above `b0[7:4]` (40_buffer_ops.md R74). -/
def oddValue (b0 b1 : Byte) : Gray := b1 ++ highNibble b0

/-- `zext_16(r)`, GET's data for a valid channel (30_encoding.md R65). -/
def grayData (v : Gray) : Half := v.zeroExtend 16

end Sys2Proof.Machine
end

