-- ==== Sys2Proof/Machine/Ops.lean ====
section
/-! DEFINITION. The named operations: the packed buffer's bytes (MemRead, MemWrite), the pins, the response, the
error signals, the transmitter's replies and the reset input (00_scope.md section 6, R12, R13; 60_exceptions.md R113;
70_reset_and_hazards.md R125). -/

namespace Sys2Proof.Machine

/-- What an unlisted byte of the buffer reads as: INIT zero-fills it (41_chain_ops.md R79). -/
def unlistedByte : Byte := 0

/-- The canonical form: addresses strictly rising, no entry equal to what an unlisted address reads as. -/
abbrev Memory.wf (m : Memory) : Prop :=
  m.Pairwise (fun x y => x.1 < y.1) ∧ ∀ x ∈ m, x.2 ≠ unlistedByte

/-- The byte at an index: the first cell that lists it, else the unlisted byte. -/
def readCell : Memory → Nat → Byte
  | [], _ => unlistedByte
  | (a, b) :: m, i => if a = i then b else readCell m i

/-- A cell put before the first one of a higher address. -/
def insertCell (i : Nat) (b : Byte) : Memory → Memory
  | [] => [(i, b)]
  | (a, x) :: m => if i < a then (i, b) :: (a, x) :: m else (a, x) :: insertCell i b m

/-- A byte written; writing the unlisted byte removes the entry. -/
def writeCell (m : Memory) (i : Nat) (b : Byte) : Memory :=
  let rest := m.filter (fun x => x.1 ≠ i)
  if b = unlistedByte then rest else insertCell i b rest

/-- How many bytes of the buffer exist: `36 x D` while ready, none while uninitialized (10_state.md R18). -/
def State.bufSize (s : State) : Nat :=
  match s.mode with
  | .ready => bufLength s.devices
  | .uninitialized => 0

/-- `MemRead(i, 1)` (00_scope.md section 6): requires that the byte exists. -/
def memRead (s : State) (i : Nat) : Except Fault Byte :=
  if i < s.bufSize then .ok (readCell s.buf i) else .error .bufferIndexOutOfRange

/-- A state with another buffer. -/
def State.setBuf (s : State) (m : Memory) : State := { s with buf := m }

/-- `MemWrite(i, 1, [b])` (00_scope.md section 6): requires that the byte exists. -/
def memWrite (s : State) (i : Nat) (b : Byte) : Except Fault State :=
  if i < s.bufSize then .ok (s.setBuf (writeCell s.buf i b)) else .error .bufferIndexOutOfRange

/-- An event appended to the output trace (00_scope.md R12). -/
def State.emit (s : State) (e : Event) : State := { s with trace := s.trace ++ [e] }

/-- A pin register written. -/
def State.setPin (s : State) (p : Pin) (level : Level) : State :=
  match p with
  | .latch => { s with latch := level }
  | .blank => { s with blank := level }

/-- `Pin(P, level)`: write the pin register and append the event, whatever the level was (00_scope.md section 6,
41_chain_ops.md R92). -/
def State.drivePin (s : State) (p : Pin) (level : Level) : State := (s.setPin p level).emit (.pin p level)

/-- A response returned to the host (30_encoding.md R60). -/
def State.respond (s : State) (r : Response) : State := { s with responses := s.responses ++ [r] }

/-- `return (OK, data)` (00_scope.md section 6). -/
def State.answerOk (s : State) (data : Half) : State := s.respond ⟨.ok, data⟩

/-- `raise <Error>`: the block's only exception. No state is saved, no mode changes and control goes nowhere: the
command ends with the error's status, and nothing else is written (60_exceptions.md R113, 00_scope.md section 6).
There is no return from it (R114). `data` is the sentinel for GET (R104), else zero (30_encoding.md R61). -/
def State.raiseError (s : State) (e : Status) (data : Half) : State := s.respond ⟨e, data⟩

/-- The FLUSH in flight (10_state.md R27). -/
def State.setFlight (s : State) (f : Option Flight) : State := { s with flight := f }

/-- The transmitter's next replies. -/
def State.setReplies (s : State) (rs : List TxReply) : State := { s with replies := rs }

/-- What the host will still do. -/
def State.setHost (s : State) (inputs : List HostInput) : State := { s with host := inputs }

/-- Whether reset is to fall between the two pin writes of the next latch pulse: the pulse is cut there
(70_reset_and_hazards.md R126). -/
def State.cutsPulse (s : State) : Bool :=
  match s.host with
  | .resetInPulse :: _ => true
  | _ => false

/-- The reset input that this step takes, as the host's inputs after it: one that is asserted at once
(70_reset_and_hazards.md R125), or one in the latch pulse, when LATCH is high for it or no FLUSH is left (R126). -/
def State.resetDue (s : State) : Option (List HostInput) :=
  match s.host, s.flight with
  | .reset :: later, _ => some later
  | .resetInPulse :: later, none => some later
  | .resetInPulse :: later, some .pulse => some later
  | _, _ => none

/-- One free value drawn. -/
def State.countDraw (s : State) : State := { s with draws := s.draws + 1 }

/-- The transmitter's next reply: an input (00_scope.md R13). It is the first one listed, and past the list's end a
free draw (notes/assumptions/2.md). -/
def State.nextReply (s : State) : TxReply × State :=
  match s.replies with
  | r :: rest => (r, s.setReplies rest)
  | [] => (Config.txReply s.draws, s.countDraw)

/-- The mode test, which comes before every other (60_exceptions.md R112): a command that has a meaning only in
`ready` (41_chain_ops.md R95, R96). -/
def whenReady (s : State) (r : Refusal) (meaning : Host.Outcome State Fault Refusal) :
    Host.Outcome State Fault Refusal :=
  match s.mode with
  | .ready => meaning
  | .uninitialized => .refused r

/-- The outcome of a command whose accesses to the buffer may fault. -/
def toOutcome : Except Fault State → Host.Outcome State Fault Refusal
  | .ok s => .next s
  | .error f => .fault f

/-- The reset input: every piece of state at its reset value at once, no event, no response, a command in flight
abandoned (70_reset_and_hazards.md R125, 10_state.md R30). What is outside the block goes on: the host's later inputs
and the transmitter's later replies. -/
def hardwareReset (later : List HostInput) (s : State) : State :=
  { State.reset with host := later, replies := s.replies, draws := s.draws }

end Sys2Proof.Machine
end

