-- ==== Sys2Proof/Machine/BufferOps.lean ====
section
/-! DEFINITION. The buffer commands SET and GET (40_buffer_ops.md R71, R74). -/

namespace Sys2Proof.Machine

/-- SET's read-modify-write of channel `c`: two bytes, the neighbour's nibble kept from the packed byte
(40_buffer_ops.md R71, R78). -/
def storeChannel (s : State) (c : Nat) (v : Gray) : Except Fault State :=
  let base := baseIndex c
  if c % 2 = 0 then do
    let s₁ ← memWrite s base (evenByte v)
    let t ← memRead s₁ (base + 1)
    memWrite s₁ (base + 1) (evenShared t v)
  else do
    let t ← memRead s base
    let s₁ ← memWrite s base (oddShared t v)
    memWrite s₁ (base + 1) (oddByte v)

/-- GET's assembly of channel `c` from the same two bytes (40_buffer_ops.md R74). -/
def loadChannel (s : State) (c : Nat) : Except Fault Gray := do
  let base := baseIndex c
  let b₀ ← memRead s base
  let b₁ ← memRead s (base + 1)
  if c % 2 = 0 then pure (evenValue b₀ b₁) else pure (oddValue b₀ b₁)

/-- SET `c, v` (40_buffer_ops.md R71). -/
def execSet (c v : Half) (s : State) : Host.Outcome State Fault Refusal :=
  whenReady s .commandWhileUninitialized <|
    if validChannel s.devices c then
      toOutcome (do
        let s₁ ← storeChannel s c.toNat (clamp v)
        pure (s₁.answerOk 0))
    else .next (s.raiseError .invalidArgument 0)

/-- GET `c` (40_buffer_ops.md R74): an invalid channel answers the sentinel together with the status (decision D10,
90_conflicts.md C5). -/
def execGet (c : Half) (s : State) : Host.Outcome State Fault Refusal :=
  whenReady s .commandWhileUninitialized <|
    if validChannel s.devices c then
      toOutcome (do
        let v ← loadChannel s c.toNat
        pure (s.answerOk (grayData v)))
    else .next (s.raiseError .invalidArgument Config.sentinel)

end Sys2Proof.Machine
end

