-- ==== Sys2Proof/Machine/Flush.lean ====
section
/-! DEFINITION. FLUSH: the whole command as one step (41_chain_ops.md R85, R86), and beside it the small-step form
of R90, which no command uses and which a statement compares with it. -/

namespace Sys2Proof.Machine

/-- The end of a successful FLUSH: LATCH low again, the response, nothing in flight (41_chain_ops.md R85, R90). -/
def endPulse (s : State) : State := ((s.drivePin .latch .low).answerOk 0).setFlight none

/-- Step 4 of FLUSH, the latch pulse (41_chain_ops.md R85). Where reset is to fall inside it the pulse is cut after
`Pin(LATCH,1)`: the FLUSH stays in flight in the phase `pulse` of R90, and the reset finds LATCH high
(70_reset_and_hazards.md R126). -/
def latchPulse (s : State) : State :=
  if s.cutsPulse then (s.drivePin .latch .high).setFlight (some .pulse) else endPulse (s.drivePin .latch .high)

/-- Steps 2 to 4 of FLUSH with the bytes `n-1` down to `0` left to send (41_chain_ops.md R85). A failed byte ends it at
once, with no latch pulse (R86); a byte not answered yet leaves the FLUSH in flight, waiting (R90). -/
def sendBytes : Nat → State → Except Fault State
  | 0, s => .ok (latchPulse s)
  | n + 1, s => do
    let b ← memRead s n
    match s.nextReply with
    | (.answer .ok, s₁) => sendBytes n (s₁.emit (.tx b .ok))
    | (.answer .fail, s₁) => pure (((s₁.emit (.tx b .fail)).raiseError .transportError 0).setFlight none)
    | (.notYet, s₁) => pure (s₁.setFlight (some (.wait n)))

/-- FLUSH (41_chain_ops.md R85): LATCH low, every byte from the last to byte 0, then the latch pulse. -/
def execFlush (s : State) : Host.Outcome State Fault Refusal :=
  whenReady s .commandWhileUninitialized
    (toOutcome (sendBytes (bufLength s.devices) (s.drivePin .latch .low)))

/-- A FLUSH in flight goes on from where it is (41_chain_ops.md R90). -/
def resumeFlight (f : Flight) (s : State) : Except Fault State :=
  match f with
  | .send i => sendBytes (i + 1) s
  | .wait i => sendBytes (i + 1) s
  | .pulse => .ok (endPulse s)

/-- The first row of R90's table: FLUSH accepted, `Pin(LATCH,0)`, `i <- L-1` (41_chain_ops.md R90). -/
def acceptFlush (s : State) : State :=
  (s.drivePin .latch .low).setFlight (some (.send (bufLength s.devices - 1)))

/-- The other rows of R90's table, one transition of a FLUSH in flight; with none in flight nothing happens
(41_chain_ops.md R90). -/
def flushTransition (s : State) : Except Fault State :=
  match s.flight with
  | none => .ok s
  | some (.send i) => .ok (s.setFlight (some (.wait i)))
  | some (.wait i) => do
    let b ← memRead s i
    match s.nextReply with
    | (.answer .ok, s₁) =>
      match i with
      | 0 => pure (((s₁.emit (.tx b .ok)).drivePin .latch .high).setFlight (some .pulse))
      | j + 1 => pure ((s₁.emit (.tx b .ok)).setFlight (some (.send j)))
    | (.answer .fail, s₁) => pure (((s₁.emit (.tx b .fail)).raiseError .transportError 0).setFlight none)
    | (.notYet, s₁) => pure s₁
  | some .pulse => .ok (endPulse s)

/-- `n` transitions of R90's table. -/
def flushTransitions : Nat → State → Except Fault State
  | 0, s => .ok s
  | n + 1, s => do
    let s₁ ← flushTransition s
    flushTransitions n s₁

end Sys2Proof.Machine
end

