-- ==== Sys2Proof/Machine/LifeCycle.lean ====
section
/-! DEFINITION. The life cycle: INIT, TEARDOWN and the reserved opcode (41_chain_ops.md R79 to R84,
30_encoding.md R58). -/

namespace Sys2Proof.Machine

/-- INIT's operands accepted: the buffer created and zero-filled, then the outputs enabled, in this order
(41_chain_ops.md R79). -/
def createHandle (count : Half) (s : State) : State :=
  (({ s with devices := count, buf := [], mode := .ready } : State).drivePin .blank .low).answerOk 0

/-- INIT with a capacity of `cap` devices: allocation fails exactly when the count exceeds it, and then nothing is
written (41_chain_ops.md R80). -/
def initWithCapacity (cap : Nat) (count : Half) (s : State) : Host.Outcome State Fault Refusal :=
  match s.mode with
  | .ready => .refused .initWhileReady
  | .uninitialized =>
    if count = 0 then .refused .initOfZeroDevices
    else if cap < count.toNat then .next (s.raiseError .resourceExhausted 0)
    else .next (createHandle count s)

/-- INIT `D` (41_chain_ops.md R79, R80). -/
def execInit (count : Half) (s : State) : Host.Outcome State Fault Refusal :=
  initWithCapacity Config.dMax count s

/-- The buffer released and the handle uninitialized; `D` becomes unspecified, a free value (41_chain_ops.md R82,
93_implementation_defined.md U6; notes/assumptions/6.md). The pins keep their levels (R83). -/
def releaseHandle (s : State) : State :=
  ({ s with mode := .uninitialized, buf := [], devices := Config.staleDevices s.draws } : State).countDraw

/-- TEARDOWN (41_chain_ops.md R82). -/
def execTeardown (s : State) : Host.Outcome State Fault Refusal :=
  whenReady s .teardownWhileUninitialized (.next ((releaseHandle s).answerOk 0))

/-- `op = 7` selects no command: refused whatever the state (30_encoding.md R58, 60_exceptions.md R112). -/
def execReserved (_ : State) : Host.Outcome State Fault Refusal := .refused .reservedOpcode

end Sys2Proof.Machine
end

