-- ==== Sys2Proof/Machine/Pins.lean ====
section
/-! DEFINITION. The pin commands ENABLE_OUTPUTS and DISABLE_OUTPUTS (41_chain_ops.md R91 to R94). -/

namespace Sys2Proof.Machine

/-- ENABLE_OUTPUTS (41_chain_ops.md R91): BLANK low, whatever its level was (R92). -/
def execEnableOutputs (s : State) : Host.Outcome State Fault Refusal :=
  whenReady s .commandWhileUninitialized (.next ((s.drivePin .blank .low).answerOk 0))

/-- DISABLE_OUTPUTS (41_chain_ops.md R93): BLANK high, whatever its level was (R92). -/
def execDisableOutputs (s : State) : Host.Outcome State Fault Refusal :=
  whenReady s .commandWhileUninitialized (.next ((s.drivePin .blank .high).answerOk 0))

end Sys2Proof.Machine
end

