-- ==== Sys2Proof/Machine/Dispatch.lean ====
section
/-! DEFINITION. Every command with its meaning, one arm for each constructor. -/

namespace Sys2Proof.Machine

def exec (i : Instr) (s : State) : Host.Outcome State Fault Refusal :=
  match i with
  | .init count => Sys2Proof.Machine.execInit count s
  | .teardown => Sys2Proof.Machine.execTeardown s
  | .set c v => Sys2Proof.Machine.execSet c v s
  | .get c => Sys2Proof.Machine.execGet c s
  | .flush => Sys2Proof.Machine.execFlush s
  | .enableOutputs => Sys2Proof.Machine.execEnableOutputs s
  | .disableOutputs => Sys2Proof.Machine.execDisableOutputs s
  | .reserved => Sys2Proof.Machine.execReserved s

end Sys2Proof.Machine
end

