-- ==== Sys2Proof/Machine/Step.lean ====
section
/-! DEFINITION. One step of the block (00_scope.md R10): the reset input first (70_reset_and_hazards.md R125), then a
FLUSH in flight (00_scope.md R11), then the host's next command. -/

namespace Sys2Proof.Machine

/-- One step. A reset that is due is taken first, also while a FLUSH waits or has LATCH high; a FLUSH in flight goes on
and no command is accepted; else the host's next command executes. With nothing to do nothing changes. -/
def step (s : State) : Host.Outcome State Fault Refusal :=
  match s.resetDue with
  | some later => .next (hardwareReset later s)
  | none =>
    match s.flight, s.host with
    | some f, _ => toOutcome (resumeFlight f s)
    | none, .command w :: later => exec (decode w) (s.setHost later)
    | none, _ => .next s

/-- The state in which the host presents this word next and no FLUSH is in flight, so that the very next step runs
it (notes/assumptions/1.md). -/
def State.withFetchWord (s : State) (nbits w : Nat) : State :=
  (s.setHost (.command (portWord nbits w) :: s.host)).setFlight none

end Sys2Proof.Machine
end

