-- ==== Sys2Proof/Machine/View.lean ====
section
/-! DEFINITION. What the spec says the buffer and the trace mean, written from its group view and its bit stream
(20_memory.md R39, R46) and not from SET, GET or FLUSH. No command uses these: statements compare the commands with
them. -/

namespace Sys2Proof.Machine

/-- Byte `i` of the buffer, `buf[i]`. -/
def State.byte (s : State) (i : Nat) : Byte := readCell s.buf i

/-- Group `g` as one 24-bit number, `buf[3g]` the least significant byte (20_memory.md R39). -/
def State.group (s : State) (g : Nat) : BitVec 24 := s.byte (3 * g + 2) ++ (s.byte (3 * g + 1) ++ s.byte (3 * g))

/-- The stored value of channel `c`: the low 12 bits of its group for an even channel, the high 12 bits for an odd one
(20_memory.md R39). -/
def State.channel (s : State) (c : Nat) : Gray :=
  if c % 2 = 0 then (s.group (c / 2)).extractLsb' 0 12 else (s.group (c / 2)).extractLsb' 12 12

/-- The bits of a value in order of time, most significant first. -/
def bitsMsbFirst {n : Nat} (v : BitVec n) : List Bool := (List.range n).map (fun k => v.getLsbD (n - 1 - k))

/-- The bits that one event puts on the wire: all 8 of a byte answered `ok` (60_exceptions.md R117), and of a byte
answered `fail` the bits `failed`, whatever they are (93_implementation_defined.md U9). -/
def eventBits (msbFirst : Bool) (failed : List Bool) : Event → List Bool
  | .tx b .ok => if msbFirst then bitsMsbFirst b else (bitsMsbFirst b).reverse
  | .tx _ .fail => failed
  | .pin _ _ => []

/-- The bits on the wire in order of time (20_memory.md R46). What the spec leaves open is an argument
(notes/assumptions/12.md): the bit order inside a byte, the transmitter's parameter `TX_MSB_FIRST` (decision D15), and
what reached the wire of the byte of event `n` if it was answered `fail`, `failed n` (U9: none, some or all of it). -/
def wireBits (msbFirst : Bool) (failed : Nat → List Bool) (es : List Event) : List Bool :=
  (es.mapIdx (fun n e => eventBits msbFirst (failed n) e)).flatten

end Sys2Proof.Machine
end

