-- ==== Sys2Proof/Safety.lean ====
section
/-! DEFINITION. What a good state and a safe outcome are, in the terms the statements use (10_state.md R31). -/

namespace Sys2Proof.Machine

/-- What a FLUSH in flight, or its absence, says of the rest: between commands LATCH is low (10_state.md R31), while
bytes are sent it is low too, and in the pulse it is high (41_chain_ops.md R90). -/
def State.FlightInv (s : State) : Prop :=
  match s.flight with
  | none => s.latch = .low
  | some (.send i) => s.mode = .ready ∧ i < bufLength s.devices ∧ s.latch = .low
  | some (.wait i) => s.mode = .ready ∧ i < bufLength s.devices ∧ s.latch = .low
  | some .pulse => s.mode = .ready ∧ s.latch = .high

/-- The invariant of the block (10_state.md R31): the device count is legal while ready, the buffer holds bytes of
existing indices only, in canonical form, and LATCH agrees with the FLUSH in flight. -/
def State.Inv (s : State) : Prop :=
  (s.mode = .ready → 1 ≤ s.devices.toNat ∧ s.devices.toNat ≤ Config.dMax) ∧
  Memory.wf s.buf ∧
  (∀ x ∈ s.buf, x.1 < s.bufSize) ∧
  s.FlightInv

/-- No fault: the block itself never traps or halts (60_exceptions.md R123). -/
def NoFault (o : Host.Outcome State Fault Refusal) : Prop := ∀ f, o ≠ .fault f

/-- The commands that have a meaning in `ready` and are refused while uninitialized as data operations
(41_chain_ops.md R96). -/
def isDataCommand : Instr → Bool
  | .set _ _ => true
  | .get _ => true
  | .flush => true
  | .enableOutputs => true
  | .disableOutputs => true
  | .init _ => false
  | .teardown => false
  | .reserved => false

/-- The next state of an outcome changed by `f`; a fault or a refusal stays as it is. -/
def mapNext (f : State → State) : Host.Outcome State Fault Refusal → Host.Outcome State Fault Refusal
  | .next s => .next (f s)
  | .fault r => .fault r
  | .refused r => .refused r

/-- Commands executed one after another (00_scope.md R11). -/
def execAll : List Instr → State → Host.Outcome State Fault Refusal
  | [], s => .next s
  | i :: is, s =>
    match exec i s with
    | .next t => execAll is t
    | .fault r => .fault r
    | .refused r => .refused r

/-- A number of steps one after another, stopping at the first fault or refusal. -/
def runSteps : Nat → State → Host.Outcome State Fault Refusal
  | 0, s => .next s
  | n + 1, s =>
    match step s with
    | .next t => runSteps n t
    | .fault r => .fault r
    | .refused r => .refused r

/-- The next step takes no reset input. -/
def State.noReset (s : State) : Prop := s.resetDue = none

/-- The block is about to execute this command: none is in flight and the host presents a word that decodes to it. -/
def State.executes (s : State) (i : Instr) : Prop :=
  s.flight = none ∧ ∃ w later, s.host = .command w :: later ∧ decode w = i

end Sys2Proof.Machine
end

