-- ==== Sys2Proof/Certificates/Slice0/Obligations.lean ====
section
/-! DEFINITION. The statements for the provers. Each docstring names the rules of spec/ it formalises. -/

open Sys2Proof Sys2Proof.Machine

-- The encodings

/-- Words written out from 30_encoding.md R54 to R57 and 95_test_vectors.md decode to their commands. -/
def Obligations.DecodeReadsSpecWords : Prop :=
  decode 0x000000001 = .init 1 ∧ decode 0x100000000 = .teardown ∧ decode 0x200000ABC = .set 0 0xABC ∧
  decode 0x20017A5A5 = .set 0x17 0xA5A5 ∧ decode 0x30001BEEF = .get 1 ∧ decode 0x4ABCD1234 = .flush ∧
  decode 0x5FFFFFFFF = .enableOutputs ∧ decode 0x600000000 = .disableOutputs ∧ decode 0x700000000 = .reserved

/-- 30_encoding.md R56: the opcode numbers, selected by the mask and match of the table's rows, and the operands' bits. -/
def Obligations.CommandSelectedByOpcodeBits : Prop :=
  ∀ w : CommandWord,
    (w &&& 0x700000000 = 0x000000000 → decode w = .init (w.extractLsb' 0 16)) ∧
    (w &&& 0x700000000 = 0x100000000 → decode w = .teardown) ∧
    (w &&& 0x700000000 = 0x200000000 → decode w = .set (w.extractLsb' 16 16) (w.extractLsb' 0 16)) ∧
    (w &&& 0x700000000 = 0x300000000 → decode w = .get (w.extractLsb' 16 16)) ∧
    (w &&& 0x700000000 = 0x400000000 → decode w = .flush) ∧
    (w &&& 0x700000000 = 0x500000000 → decode w = .enableOutputs) ∧
    (w &&& 0x700000000 = 0x600000000 → decode w = .disableOutputs) ∧
    (w &&& 0x700000000 = 0x700000000 → decode w = .reserved)

/-- Decode and encode agree on every command and on the reserved row, with every operand (30_encoding.md R54 to R56). -/
def Obligations.DecodeOfEncodeIsTheCommand : Prop := ∀ i : Instr, decode (encode i) = i

/-- Encode gives a decoded word back, with the bits that its row ignores as zeros (30_encoding.md R54 to R57). -/
def Obligations.EncodeOfDecodeClearsIgnoredBits : Prop :=
  ∀ w : CommandWord, encode (decode w) = w &&& usedBits (decode w)

/-- 30_encoding.md R57: with the same `op`, the same `a` for SET and GET and the same `d` for INIT and SET, two words do the
same: the same command, the same step in every state. -/
def Obligations.IgnoredFieldsHaveNoEffect : Prop :=
  ∀ w w' : CommandWord, opField w = opField w' →
    ((opField w = 2 ∨ opField w = 3) → aField w = aField w') →
    ((opField w = 0 ∨ opField w = 2) → dField w = dField w') →
    decode w = decode w' ∧
    ∀ (s : State) (later : List HostInput), s.flight = none →
      step (s.setHost (.command w :: later)) = step (s.setHost (.command w' :: later))

/-- The response word's bits and the status codes (30_encoding.md R60, R62). -/
def Obligations.ResponseWordHoldsStatusAndData : Prop :=
  ∀ d : Half,
    (responseWord ⟨.ok, d⟩).toNat = d.toNat ∧ (responseWord ⟨.invalidArgument, d⟩).toNat = 0x10000 + d.toNat ∧
    (responseWord ⟨.resourceExhausted, d⟩).toNat = 0x20000 + d.toNat ∧
    (responseWord ⟨.transportError, d⟩).toNat = 0x30000 + d.toNat

-- One step

/-- 00_scope.md R10: with no FLUSH in flight, the step takes the host's next word and runs the command it decodes to. -/
def Obligations.StepRunsDecodedCommand : Prop :=
  ∀ (s : State) (w : CommandWord) (later : List HostInput), s.flight = none → s.host = .command w :: later →
    step s = exec (decode w) { s with host := later }

/-- 00_scope.md R11: while a FLUSH is in flight no command is accepted: the host's inputs stay, and so do the mode, the
device count, the buffer and BLANK; at most one response is returned, and with it the FLUSH is over. That a waiting FLUSH
is a state of its own between steps is the model's choice (notes/assumptions/3.md). -/
def Obligations.BusyBlockAcceptsNoCommand : Prop :=
  ∀ s t : State, s.flight ≠ none → s.noReset → step s = .next t →
    t.host = s.host ∧ t.mode = s.mode ∧ t.devices = s.devices ∧ t.buf = s.buf ∧ t.blank = s.blank ∧
    ((t.flight ≠ none ∧ t.responses = s.responses) ∨
      (t.flight = none ∧ ∃ r, t.responses = s.responses ++ [r]))

/-- MODEL'S CHOICE, notes/assumptions/11.md: with no command in flight and no input the step changes nothing. -/
def Obligations.IdleBlockStays : Prop :=
  ∀ s : State, s.flight = none → s.host = [] → step s = .next s

-- Reset

/-- 10_state.md R30, 70_reset_and_hazards.md R125, R126: the state after reset, as the machine's first state and after the
reset input at any time, also with a FLUSH in flight or with LATCH high in its pulse. Nothing is said of `D`, which R30
leaves unspecified. MODEL'S CHOICE, notes/assumptions/14.md: which step takes the reset: the next one for `reset`, and for
`resetInPulse` the next one in the pulse or with no FLUSH in flight. -/
def Obligations.ResetLeavesStatedValues : Prop :=
  (State.reset.mode = .uninitialized ∧ State.reset.bufSize = 0 ∧ State.reset.latch = .low ∧ State.reset.blank = .high ∧
    State.reset.trace = [] ∧ State.reset.flight = none) ∧
  ∀ (s : State) (later : List HostInput),
    (s.host = .reset :: later ∨ (s.host = .resetInPulse :: later ∧ (s.flight = none ∨ s.flight = some .pulse))) →
    ∃ t, step s = .next t ∧ t.mode = .uninitialized ∧ t.bufSize = 0 ∧ t.latch = .low ∧ t.blank = .high ∧
      t.trace = [] ∧ t.flight = none

-- INIT

/-- 41_chain_ops.md R79, success: the handle is ready, the buffer has `36 x D` zero bytes, BLANK is driven low as the only
event, and nothing else changes. -/
def Obligations.InitCreatesZeroedHandle : Prop :=
  ∀ (s : State) (count : Half), s.mode = .uninitialized → 1 ≤ count.toNat → count.toNat ≤ Config.dMax →
    ∃ t, exec (.init count) s = .next t ∧
      t = { s with mode := .ready, devices := count, buf := t.buf, blank := .low,
                   trace := s.trace ++ [.pin .blank .low], responses := s.responses ++ [⟨.ok, 0⟩] } ∧
      t.bufSize = 36 * count.toNat ∧ (∀ i, t.byte i = 0)

/-- 41_chain_ops.md R80: a count above `D_MAX` answers ResourceExhausted and leaves the whole state as
it was; a later INIT with a count that fits succeeds. -/
def Obligations.InitBeyondCapacityLeavesState : Prop :=
  ∀ (s : State) (count : Half), s.mode = .uninitialized → Config.dMax < count.toNat →
    exec (.init count) s = .next { s with responses := s.responses ++ [⟨.resourceExhausted, 0⟩] } ∧
    ∀ fits : Half, 1 ≤ fits.toNat → fits.toNat ≤ Config.dMax →
      ∃ t, exec (.init fits) { s with responses := s.responses ++ [⟨.resourceExhausted, 0⟩] } = .next t ∧ t.mode = .ready

/-- 41_chain_ops.md R79 and 93_implementation_defined.md U3: INIT of zero devices is refused. -/
def Obligations.InitOfZeroDevicesIsRefused : Prop :=
  ∀ s : State, s.mode = .uninitialized → exec (.init 0) s = .refused .initOfZeroDevices

-- TEARDOWN

/-- 41_chain_ops.md R82, R83: the buffer ceases to exist and the mode changes; the pins, the trace and the inputs stay.
Nothing is said of `D`, which the rule leaves unspecified. MODEL'S CHOICE, notes/assumptions/13.md: a byte that does not
exist reads as a fault. -/
def Obligations.TeardownReleasesBuffer : Prop :=
  ∀ s : State, s.mode = .ready →
    ∃ t, exec .teardown s = .next t ∧
      t = { s with mode := .uninitialized, devices := t.devices, buf := t.buf, draws := t.draws,
                   responses := s.responses ++ [⟨.ok, 0⟩] } ∧
      ∀ i, memRead t i = .error .bufferIndexOutOfRange

/-- 41_chain_ops.md R84: after TEARDOWN an INIT behaves as the first one did: the new device count, every byte zero, BLANK
driven low. -/
def Obligations.ReinitialisationStartsAfresh : Prop :=
  ∀ (s : State) (count : Half), s.mode = .ready → 1 ≤ count.toNat → count.toNat ≤ Config.dMax →
    ∃ t, execAll [.teardown, .init count] s = .next t ∧ t.mode = .ready ∧ t.devices = count ∧ (∀ i, t.byte i = 0) ∧
      t.blank = .low ∧ t.trace = s.trace ++ [.pin .blank .low] ∧
      t.responses = s.responses ++ [⟨.ok, 0⟩, ⟨.ok, 0⟩]

-- Refusals

/-- 41_chain_ops.md R96: commands outside their state are refused, whatever their operands (60_exceptions.md R112). -/
def Obligations.CommandsOutsideTheirStateAreRefused : Prop :=
  ∀ s : State,
    (s.mode = .uninitialized → (∀ i, isDataCommand i = true → exec i s = .refused .commandWhileUninitialized) ∧
      exec .teardown s = .refused .teardownWhileUninitialized) ∧
    (s.mode = .ready → ∀ count, exec (.init count) s = .refused .initWhileReady)

/-- 30_encoding.md R58: a word with `op = 7` is refused in every state that would accept a command. -/
def Obligations.ReservedOpcodeIsRefused : Prop :=
  (∀ s : State, exec .reserved s = .refused .reservedOpcode) ∧
  ∀ (s : State) (w : CommandWord) (later : List HostInput), s.flight = none → s.host = .command w :: later →
    opField w = 7 → step s = .refused .reservedOpcode

-- SET

/-- 40_buffer_ops.md R71 with 20_memory.md R37 and R38, as numbers: the clamped value `v12` in its byte and nibble, the
neighbour's nibble and every other byte as before, nothing else changed but the response; an invalid channel changes
nothing. -/
def Obligations.SetWritesItsByteAndNibble : Prop :=
  ∀ (s : State) (c v : Half), s.mode = .ready →
    if c.toNat < 24 * s.devices.toNat then
      ∃ t, exec (.set c v) s = .next t ∧
        t = { s with buf := t.buf, responses := s.responses ++ [⟨.ok, 0⟩] } ∧
        (∀ i, i ≠ baseIndex c.toNat → i ≠ baseIndex c.toNat + 1 → t.byte i = s.byte i) ∧
        (c.toNat % 2 = 0 →
          (t.byte (baseIndex c.toNat)).toNat = min v.toNat 4095 % 256 ∧
          (t.byte (baseIndex c.toNat + 1)).toNat =
            16 * ((s.byte (baseIndex c.toNat + 1)).toNat / 16) + min v.toNat 4095 / 256) ∧
        (c.toNat % 2 = 1 →
          (t.byte (baseIndex c.toNat)).toNat =
            16 * (min v.toNat 4095 % 16) + (s.byte (baseIndex c.toNat)).toNat % 16 ∧
          (t.byte (baseIndex c.toNat + 1)).toNat = min v.toNat 4095 / 16)
    else exec (.set c v) s = .next { s with responses := s.responses ++ [⟨.invalidArgument, 0⟩] }

/-- 40_buffer_ops.md R72: after SET every other valid channel reads by GET as before, every byte other than the two is
unchanged, and so is the neighbour's nibble. -/
def Obligations.SetDisturbsNoOtherChannel : Prop :=
  ∀ (s : State) (c v : Half), s.mode = .ready → c.toNat < 24 * s.devices.toNat →
    ∃ t, exec (.set c v) s = .next t ∧
      (∀ c' : Half, c' ≠ c → c'.toNat < 24 * s.devices.toNat →
        ∃ x, exec (.get c') s = .next (s.respond ⟨.ok, x⟩) ∧ exec (.get c') t = .next (t.respond ⟨.ok, x⟩)) ∧
      (∀ i, i ≠ baseIndex c.toNat → i ≠ baseIndex c.toNat + 1 → t.byte i = s.byte i) ∧
      (c.toNat % 2 = 0 → highNibble (t.byte (baseIndex c.toNat + 1)) = highNibble (s.byte (baseIndex c.toNat + 1))) ∧
      (c.toNat % 2 = 1 → lowNibble (t.byte (baseIndex c.toNat)) = lowNibble (s.byte (baseIndex c.toNat)))

/-- 40_buffer_ops.md R73: a value above 4095 behaves as 4095, for every channel, valid or not. -/
def Obligations.SetClampsLargeValues : Prop :=
  ∀ (s : State) (c v : Half), 4095 < v.toNat → exec (.set c v) s = exec (.set c 4095) s

/-- 30_encoding.md R64: clamping is saturation at 12 bits. -/
def Obligations.ClampSaturates : Prop :=
  ∀ v : Half, (clamp v).toNat = min v.toNat 4095 ∧
    clamp v = if v.extractLsb' 12 4 ≠ 0 then 0xFFF else v.extractLsb' 0 12

-- GET

/-- 40_buffer_ops.md R74, as numbers: a valid channel answers its byte and nibble put together, an invalid one the sentinel
with InvalidArgument; nothing but the response changes. -/
def Obligations.GetAssemblesItsByteAndNibble : Prop :=
  ∀ (s : State) (c : Half), s.mode = .ready →
    if c.toNat < 24 * s.devices.toNat then
      ∃ x : Half, exec (.get c) s = .next { s with responses := s.responses ++ [⟨.ok, x⟩] } ∧
        (c.toNat % 2 = 0 →
          x.toNat = (s.byte (baseIndex c.toNat)).toNat + 256 * ((s.byte (baseIndex c.toNat + 1)).toNat % 16)) ∧
        (c.toNat % 2 = 1 →
          x.toNat = (s.byte (baseIndex c.toNat)).toNat / 16 + 16 * (s.byte (baseIndex c.toNat + 1)).toNat)
    else exec (.get c) s = .next { s with responses := s.responses ++ [⟨.invalidArgument, 0xFFFF⟩] }

/-- 40_buffer_ops.md R75, the round trip with R73: GET after SET answers the clamped value. -/
def Obligations.GetAfterSetReturnsTheValue : Prop :=
  ∀ (s : State) (c v : Half), s.mode = .ready → c.toNat < 24 * s.devices.toNat →
    ∃ t, exec (.set c v) s = .next t ∧
      exec (.get c) t = .next { t with responses := t.responses ++ [⟨.ok, BitVec.ofNat 16 (min v.toNat 4095)⟩] }

/-- 40_buffer_ops.md R76: the sentinel appears exactly with InvalidArgument, and a valid channel's data has 12 bits. -/
def Obligations.SentinelOnlyForInvalidChannels : Prop :=
  ∀ (s t : State) (c : Half), exec (.get c) s = .next t →
    ∃ r : Response, t.responses = s.responses ++ [r] ∧
      (r.status = .invalidArgument ↔ r.data = 0xFFFF) ∧ (r.data = 0xFFFF ↔ 24 * s.devices.toNat ≤ c.toNat) ∧
      (c.toNat < 24 * s.devices.toNat → r.data.toNat ≤ 0x0FFF)

/-- 20_memory.md R39 and 30_encoding.md R63, the group view: after `SET 2g, e` and `SET 2g+1, o` the three bytes of group `g`
are the 24-bit number `o` above `e`, in whatever order the two are set. -/
def Obligations.SetPairFillsItsGroup : Prop :=
  ∀ (s : State) (g : Nat) (e o : Gray), s.mode = .ready → g < 12 * s.devices.toNat → 2 * g + 1 < 65536 →
    ∃ t u, execAll [.set (BitVec.ofNat 16 (2 * g)) (e.zeroExtend 16), .set (BitVec.ofNat 16 (2 * g + 1)) (o.zeroExtend 16)] s = .next t ∧
      execAll [.set (BitVec.ofNat 16 (2 * g + 1)) (o.zeroExtend 16), .set (BitVec.ofNat 16 (2 * g)) (e.zeroExtend 16)] s = .next u ∧
      t.group g = o ++ e ∧ u.group g = o ++ e

/-- 40_buffer_ops.md R75, the bijection: with the same device count, buffers whose channels all hold the same values are
the same data, and from every ready state SETs lead to every assignment of values to the channels. -/
def Obligations.BufferIsItsChannelValues : Prop :=
  (∀ s t : State, s.Inv → t.Inv → s.mode = .ready → t.mode = .ready → s.devices = t.devices →
    (∀ c, c < 24 * s.devices.toNat → s.channel c = t.channel c) → s.buf = t.buf) ∧
  ∀ (s : State) (f : Nat → Gray), s.Inv → s.mode = .ready →
    ∃ cmds t, (∀ i ∈ cmds, ∃ c v, i = .set c v) ∧ execAll cmds s = .next t ∧ t.mode = .ready ∧
      t.devices = s.devices ∧ ∀ c, c < 24 * s.devices.toNat → t.channel c = f c

/-- 20_memory.md R36, R41, R42: the byte indices of the even and the odd channel of a group, inside the buffer, and inside
the 36 bytes of the channel's device. -/
def Obligations.ChannelAddressesStayInTheirDevice : Prop :=
  (∀ g, baseIndex (2 * g) = 3 * g ∧ baseIndex (2 * g + 1) = 3 * g + 1) ∧
  ∀ d c : Half, c.toNat < 24 * d.toNat →
    baseIndex c.toNat + 1 < bufLength d ∧ 36 * (c.toNat / 24) ≤ baseIndex c.toNat ∧
    baseIndex c.toNat + 1 ≤ 36 * (c.toNat / 24) + 35

-- FLUSH

/-- 41_chain_ops.md R87 with R85: every byte answered `ok`, a FLUSH drives LATCH low, sends exactly `36 x D` bytes, the
`j`-th carrying `buf[36*D-1-j]`, and pulses LATCH; nothing else changes but the response. `ResetInPulseReturnsLatchLow`
says what happens where reset is to fall inside that pulse. -/
def Obligations.FlushSendsBufferThenPulses : Prop :=
  ∀ (s : State) (rest : List TxReply), s.mode = .ready → s.cutsPulse = false →
    s.replies = List.replicate (36 * s.devices.toNat) (.answer .ok) ++ rest →
    exec .flush s = .next { s with
      latch := .low, flight := none, replies := rest,
      trace := s.trace ++ [.pin .latch .low] ++
        (List.range (36 * s.devices.toNat)).map (fun j => Event.tx (s.byte (36 * s.devices.toNat - 1 - j)) .ok) ++
        [.pin .latch .high, .pin .latch .low],
      responses := s.responses ++ [⟨.ok, 0⟩] }

/-- 41_chain_ops.md R86: when byte `k` is answered `fail`, the bytes above it were sent, none below is, there is no latch
pulse, and the rest of the state is as it was; the response is TransportError. -/
def Obligations.FlushAbortsAtFailedByte : Prop :=
  ∀ (s : State) (k : Nat) (rest : List TxReply), s.mode = .ready → k < 36 * s.devices.toNat →
    s.replies = List.replicate (36 * s.devices.toNat - 1 - k) (.answer .ok) ++ .answer .fail :: rest →
    exec .flush s = .next { s with
      latch := .low, flight := none, replies := rest,
      trace := s.trace ++ [.pin .latch .low] ++
        (List.range (36 * s.devices.toNat - 1 - k)).map (fun j => Event.tx (s.byte (36 * s.devices.toNat - 1 - j)) .ok) ++
        [.tx (s.byte k) .fail],
      responses := s.responses ++ [⟨.transportError, 0⟩] }

/-- 41_chain_ops.md R90: when byte `k` is not answered, the FLUSH waits at it, with the bytes above it sent and no response
returned. MODEL'S CHOICE, notes/assumptions/3.md: the step ends there, with the FLUSH in flight. -/
def Obligations.FlushWaitsAtUnansweredByte : Prop :=
  ∀ (s : State) (k : Nat) (rest : List TxReply), s.mode = .ready → k < 36 * s.devices.toNat →
    s.replies = List.replicate (36 * s.devices.toNat - 1 - k) (.answer .ok) ++ .notYet :: rest →
    exec .flush s = .next { s with
      latch := .low, flight := some (.wait k), replies := rest,
      trace := s.trace ++ [.pin .latch .low] ++
        (List.range (36 * s.devices.toNat - 1 - k)).map (fun j => Event.tx (s.byte (36 * s.devices.toNat - 1 - j)) .ok) }

/-- 41_chain_ops.md R85, R90, 70_reset_and_hazards.md R126: whatever the transmitter does, a FLUSH in `ready` takes a step,
and afterwards it has returned its response, waits at a byte of the buffer, or is in the pulse that a reset cuts. MODEL'S
CHOICE, notes/assumptions/3.md: a FLUSH whose transmitter is silent takes a step too and ends it waiting (U10 and R123
call it stuck); notes/assumptions/14.md: so does one that a reset cuts. -/
def Obligations.FlushAnswersOrWaits : Prop :=
  ∀ s : State, s.mode = .ready →
    ∃ t, exec .flush s = .next t ∧
      ((t.flight = none ∧ ∃ st, (st = .ok ∨ st = .transportError) ∧ t.responses = s.responses ++ [⟨st, 0⟩]) ∨
       (∃ k, k < 36 * s.devices.toNat ∧ t.flight = some (.wait k) ∧ t.responses = s.responses) ∨
       (s.cutsPulse = true ∧ t.flight = some .pulse ∧ t.latch = .high ∧ t.responses = s.responses))

/-- 41_chain_ops.md R90, last row: while the transmitter does not answer, the block waits, for any number of steps. MODEL'S
CHOICE, notes/assumptions/2.md: a reply `notYet` is used up by each step that waits. -/
def Obligations.SilentTransmitterHangsFlush : Prop :=
  ∀ (s : State) (k n : Nat) (rest : List TxReply), s.noReset → s.flight = some (.wait k) → k < s.bufSize →
    s.replies = List.replicate n .notYet ++ rest →
    runSteps n s = .next { s with replies := rest }

/-- 41_chain_ops.md R85, R90, 70_reset_and_hazards.md R126: a byte answered late changes nothing: after the wait the FLUSH
ends as if the answer had been there at once, in its pulse too where a reset cuts that. MODEL'S CHOICE,
notes/assumptions/3.md: the waiting FLUSH goes on in the next step; notes/assumptions/14.md: where the host's next input
is `resetInPulse`, it waits until the pulse and cuts it there. -/
def Obligations.LateAnswerDoesNotChangeFlush : Prop :=
  ∀ (s : State) (j : Nat) (rest : List TxReply), s.mode = .ready → j < 36 * s.devices.toNat →
    (∀ later, s.host ≠ .reset :: later) →
    s.replies = List.replicate j (.answer .ok) ++ .notYet :: rest →
    ∃ t, exec .flush s = .next t ∧
      step t = exec .flush { s with replies := List.replicate j (.answer .ok) ++ rest }

/-- 41_chain_ops.md R90: the small-step form is equivalent to FLUSH: its transitions lead from the accepted FLUSH to the
very state that FLUSH gives, and, if that FLUSH is over, to no other state in which it is over. MODEL'S CHOICE: a FLUSH that
is not answered is a state that waits and uses up the replies `notYet` (notes/assumptions/2.md, notes/assumptions/3.md),
and one that a reset cuts is a state in the phase `pulse` (notes/assumptions/14.md). -/
def Obligations.SmallStepFormAgreesWithFlush : Prop :=
  ∀ s : State, s.mode = .ready → 1 ≤ s.devices.toNat →
    ∃ t, exec .flush s = .next t ∧
      (∃ n, flushTransitions n (acceptFlush s) = .ok t) ∧
      (t.flight = none → ∀ m u, flushTransitions m (acceptFlush s) = .ok u → u.flight = none → u = t)

/-- 41_chain_ops.md R88: two FLUSH commands with the same answers of the transmitter, successful or failing at the same
byte, emit the same events, and leave the state as they found it; no reset falls inside their pulses. -/
def Obligations.FlushTwiceEmitsTheSameEvents : Prop :=
  ∀ (s : State) (answers rest : List TxReply), s.mode = .ready → s.latch = .low → s.flight = none → s.cutsPulse = false →
    (answers = List.replicate (36 * s.devices.toNat) (.answer .ok) ∨
      ∃ k, k < 36 * s.devices.toNat ∧
        answers = List.replicate (36 * s.devices.toNat - 1 - k) (.answer .ok) ++ [.answer .fail]) →
    s.replies = answers ++ (answers ++ rest) →
    ∃ events r, ∃ t u : State, exec .flush s = .next t ∧ exec .flush t = .next u ∧
      t = { s with trace := s.trace ++ events, responses := s.responses ++ [r], replies := answers ++ rest } ∧
      u = { s with trace := s.trace ++ events ++ events, responses := s.responses ++ [r] ++ [r], replies := rest }

/-- 20_memory.md R46: if the transmitter shifts each byte out most significant bit first, the bits on the wire are, for the
channels from the last to channel 0, the 12 bits of each from the most significant; `288 x D` bits. No byte is answered
`fail` here, so nothing is said of what such a byte puts on the wire (93_implementation_defined.md U9): `failed` is any. -/
def Obligations.WireCarriesChannelsMsbFirst : Prop :=
  ∀ (s : State) (rest : List TxReply) (failed : Nat → List Bool), s.mode = .ready →
    s.replies = List.replicate (36 * s.devices.toNat) (.answer .ok) ++ rest →
    ∃ events, ∃ t : State, exec .flush s = .next t ∧ t.trace = s.trace ++ events ∧
      wireBits true failed events =
        (List.range (24 * s.devices.toNat)).reverse.flatMap (fun c => bitsMsbFirst (s.channel c)) ∧
      (wireBits true failed events).length = 288 * s.devices.toNat

-- The pins

/-- 41_chain_ops.md R91, R92: ENABLE_OUTPUTS drives BLANK low, emits its event whatever the level was, and changes nothing
else but the response. -/
def Obligations.EnableOutputsDrivesBlankLow : Prop :=
  ∀ s : State, s.mode = .ready →
    exec .enableOutputs s = .next { s with
      blank := .low, trace := s.trace ++ [.pin .blank .low], responses := s.responses ++ [⟨.ok, 0⟩] }

/-- 41_chain_ops.md R93, R92: DISABLE_OUTPUTS drives BLANK high, emits its event whatever the level was, and changes nothing
else but the response. -/
def Obligations.DisableOutputsDrivesBlankHigh : Prop :=
  ∀ s : State, s.mode = .ready →
    exec .disableOutputs s = .next { s with
      blank := .high, trace := s.trace ++ [.pin .blank .high], responses := s.responses ++ [⟨.ok, 0⟩] }

/-- 41_chain_ops.md R94: SET, GET and FLUSH neither read nor write BLANK: with another level of BLANK they do the same and
leave that level. -/
def Obligations.BlankDoesNotTouchTheDataPath : Prop :=
  ∀ (s : State) (b : Level) (i : Instr), ((∃ c v, i = .set c v) ∨ (∃ c, i = .get c) ∨ i = .flush) →
    exec i { s with blank := b } = mapNext (fun t => { t with blank := b }) (exec i s) ∧
    ∀ t, exec i s = .next t → t.blank = s.blank

-- The whole machine

/-- 10_state.md R31: the state after reset meets the invariant. -/
def Obligations.ResetMeetsTheInvariant : Prop := State.reset.Inv

/-- 10_state.md R31: every step keeps the invariant: a legal device count while ready, a canonical buffer within its
`36 x D` bytes, and LATCH low between commands. The canonical form is the model's (notes/assumptions/13.md). -/
def Obligations.StepKeepsTheInvariant : Prop := ∀ s t : State, s.Inv → step s = .next t → t.Inv

/-- 60_exceptions.md R123: no command ever faults, in any state, and no step does from a state that meets the invariant. -/
def Obligations.BlockNeverFaults : Prop :=
  (∀ (i : Instr) (s : State), NoFault (exec i s)) ∧ ∀ s : State, s.Inv → NoFault (step s)

/-- 60_exceptions.md R104 to R106: a command that answers returns each error exactly for its cause, and an InvalidArgument or
ResourceExhausted leaves everything but the responses as it was. -/
def Obligations.ErrorsExactlyForTheirCauses : Prop :=
  ∀ (i : Instr) (s t : State), exec i s = .next t →
    ((∃ d, t.responses = s.responses ++ [⟨.invalidArgument, d⟩]) ↔
      ∃ c, 24 * s.devices.toNat ≤ c.toNat ∧ ((∃ v, i = .set c v) ∨ i = .get c)) ∧
    ((∃ c, i = .get c) → (∃ d, t.responses = s.responses ++ [⟨.invalidArgument, d⟩]) →
      t.responses = s.responses ++ [⟨.invalidArgument, 0xFFFF⟩]) ∧
    ((∃ d, t.responses = s.responses ++ [⟨.resourceExhausted, d⟩]) ↔
      ∃ count, i = .init count ∧ Config.dMax < count.toNat) ∧
    ((∃ d, t.responses = s.responses ++ [⟨.transportError, d⟩]) ↔
      i = .flush ∧ ∃ b, t.trace.getLast? = some (.tx b .fail)) ∧
    ((∃ st d, (st = .invalidArgument ∨ st = .resourceExhausted) ∧ t.responses = s.responses ++ [⟨st, d⟩]) →
      t = { s with responses := t.responses })

/-- 30_encoding.md R61 with R60: but for the reset input, a step returns at most one response, and its data is zero unless
the command is GET. -/
def Obligations.OnlyGetReturnsData : Prop :=
  ∀ s t : State, s.noReset → step s = .next t →
    t.responses = s.responses ∨
    ∃ r, t.responses = s.responses ++ [r] ∧ (r.data ≠ 0 → ∃ c, s.executes (.get c))

/-- 30_encoding.md R60: a command that answers returns exactly one response. MODEL'S CHOICE, notes/assumptions/3.md: a
FLUSH left waiting for the transmitter is a next state without a response, which it returns later;
notes/assumptions/14.md: so is one that a reset cuts in its pulse, which never returns it (70_reset_and_hazards.md R125). -/
def Obligations.EveryCommandReturnsOneResponse : Prop :=
  ∀ (i : Instr) (s t : State), exec i s = .next t →
    (∃ r, t.responses = s.responses ++ [r]) ∨
    (i = .flush ∧ t.responses = s.responses ∧
      ((∃ k, t.flight = some (.wait k)) ∨ (s.cutsPulse = true ∧ t.flight = some .pulse)))

/-- 10_state.md R16, 41_chain_ops.md R95: but for the reset input, the mode changes only by an INIT that answers OK, to
ready, and by TEARDOWN, to uninitialized. -/
def Obligations.OnlyInitAndTeardownChangeMode : Prop :=
  ∀ s t : State, s.noReset → step s = .next t → t.mode ≠ s.mode →
    (t.mode = .ready ∧ (∃ count, s.executes (.init count)) ∧ t.responses = s.responses ++ [⟨.ok, 0⟩]) ∨
    (t.mode = .uninitialized ∧ s.executes .teardown)

/-- 10_state.md R17, R18: but for the reset input, a step that stays in ready keeps the device count, and changes a byte of
the buffer only if it executes SET. -/
def Obligations.ReadyKeepsDevicesAndOnlySetWritesBuffer : Prop :=
  ∀ s t : State, s.noReset → step s = .next t → s.mode = .ready → t.mode = .ready →
    t.devices = s.devices ∧ (t.buf ≠ s.buf → ∃ c v, s.executes (.set c v))

/-- 10_state.md R19, R20: but for the reset input, LATCH changes only by a FLUSH (executed or in flight), and BLANK only by
an INIT that answers OK, ENABLE_OUTPUTS or DISABLE_OUTPUTS. -/
def Obligations.PinsChangeOnlyByTheirCommands : Prop :=
  ∀ s t : State, s.noReset → step s = .next t →
    (t.latch ≠ s.latch → s.executes .flush ∨ s.flight ≠ none) ∧
    (t.blank ≠ s.blank → s.executes .enableOutputs ∨ s.executes .disableOutputs ∨
      ((∃ count, s.executes (.init count)) ∧ t.mode = .ready))

/-- 70_reset_and_hazards.md R144: the number of events each command emits. -/
def Obligations.EventCountsOfCommands : Prop :=
  ∀ (i : Instr) (s t : State), exec i s = .next t →
    match i with
    | .init _ => t.trace.length = s.trace.length + if t.mode = .ready then 1 else 0
    | .enableOutputs => t.trace.length = s.trace.length + 1
    | .disableOutputs => t.trace.length = s.trace.length + 1
    | .flush =>
      (t.responses = s.responses ++ [⟨.ok, 0⟩] → t.trace.length = s.trace.length + (36 * s.devices.toNat + 3)) ∧
      (t.responses = s.responses ++ [⟨.transportError, 0⟩] →
        ∃ k, k < 36 * s.devices.toNat ∧ t.trace.getLast? = some (.tx (s.byte k) .fail) ∧
          t.trace.length = s.trace.length + (36 * s.devices.toNat - k + 1))
    | .teardown => t.trace = s.trace
    | .set _ _ => t.trace = s.trace
    | .get _ => t.trace = s.trace
    | .reserved => False

-- Reset in the latch pulse

/-- 70_reset_and_hazards.md R126, R125: where reset falls between `Pin(LATCH,1)` and `Pin(LATCH,0)` of a FLUSH, LATCH is
high with all bytes sent and no response returned, and the reset returns LATCH to low: the state after it is R30's,
nothing is emitted after `Pin(LATCH,1)`, and the FLUSH never answers. MODEL'S CHOICE, notes/assumptions/14.md: the pulse
is cut where the host's next input is `resetInPulse`; notes/assumptions/9.md: reset empties the responses. Nothing is said
of `D` after the reset. -/
def Obligations.ResetInPulseReturnsLatchLow : Prop :=
  ∀ (s : State) (rest : List TxReply) (later : List HostInput), s.mode = .ready → s.host = .resetInPulse :: later →
    s.replies = List.replicate (36 * s.devices.toNat) (.answer .ok) ++ rest →
    ∃ t u, exec .flush s = .next t ∧
      t = { s with
        latch := .high, flight := some .pulse, replies := rest,
        trace := s.trace ++ [.pin .latch .low] ++
          (List.range (36 * s.devices.toNat)).map (fun j => Event.tx (s.byte (36 * s.devices.toNat - 1 - j)) .ok) ++
          [.pin .latch .high] } ∧
      step t = .next u ∧ u.latch = .low ∧ u.blank = .high ∧ u.mode = .uninitialized ∧ u.bufSize = 0 ∧ u.flight = none ∧
      u.trace = [] ∧ u.responses = [] ∧ u.host = later ∧ u.replies = rest
end

