-- ==== Sys2Proof/Laws/Operands.lean ====
section
/-! SUPPORT. The bit fields of a value and of a byte as numbers (20_memory.md R37, R38; 30_encoding.md R64, R65). -/

namespace Sys2Proof.Machine

@[simp] theorem clamp_toNat (v : Half) : (clamp v).toNat = min v.toNat 4095 := by
  simp only [clamp, Config.grayMax, BitVec.toNat_ofNat]
  omega

theorem lowNibble_toNat (b : Byte) : (lowNibble b).toNat = b.toNat % 16 := by
  simp [lowNibble, BitVec.extractLsb'_toNat]

theorem highNibble_toNat (b : Byte) : (highNibble b).toNat = b.toNat / 16 := by
  have := b.isLt
  simp only [highNibble, BitVec.extractLsb'_toNat, Nat.shiftRight_eq_div_pow]
  omega

/-- Two nibbles put together. -/
theorem nibbles_toNat (h l : BitVec 4) : (h ++ l : BitVec (4 + 4)).toNat = 16 * h.toNat + l.toNat := by
  have := l.isLt
  rw [BitVec.toNat_append, ← Nat.shiftLeft_add_eq_or_of_lt this, Nat.shiftLeft_eq]
  omega

theorem evenByte_toNat (v : Gray) : (evenByte v).toNat = v.toNat % 256 := by
  simp [evenByte, BitVec.extractLsb'_toNat]

theorem evenShared_toNat (t : Byte) (v : Gray) : (evenShared t v).toNat = 16 * (t.toNat / 16) + v.toNat / 256 := by
  have := v.isLt
  refine (nibbles_toNat _ _).trans ?_
  rw [highNibble_toNat]
  simp only [BitVec.extractLsb'_toNat, Nat.shiftRight_eq_div_pow]
  omega

theorem oddShared_toNat (t : Byte) (v : Gray) : (oddShared t v).toNat = 16 * (v.toNat % 16) + t.toNat % 16 := by
  refine (nibbles_toNat _ _).trans ?_
  rw [lowNibble_toNat]
  simp [BitVec.extractLsb'_toNat]

theorem oddByte_toNat (v : Gray) : (oddByte v).toNat = v.toNat / 16 := by
  have := v.isLt
  simp only [oddByte, BitVec.extractLsb'_toNat, Nat.shiftRight_eq_div_pow]
  omega

theorem evenValue_toNat (b₀ b₁ : Byte) : (evenValue b₀ b₁).toNat = b₀.toNat + 256 * (b₁.toNat % 16) := by
  have := b₀.isLt
  have h : (lowNibble b₁ ++ b₀ : BitVec (4 + 8)).toNat = b₀.toNat + 256 * (b₁.toNat % 16) := by
    rw [BitVec.toNat_append, ← Nat.shiftLeft_add_eq_or_of_lt this, Nat.shiftLeft_eq, lowNibble_toNat]
    omega
  exact h

theorem oddValue_toNat (b₀ b₁ : Byte) : (oddValue b₀ b₁).toNat = b₀.toNat / 16 + 16 * b₁.toNat := by
  have h : (b₁ ++ highNibble b₀ : BitVec (8 + 4)).toNat = b₀.toNat / 16 + 16 * b₁.toNat := by
    rw [BitVec.toNat_append, ← Nat.shiftLeft_add_eq_or_of_lt (highNibble b₀).isLt, Nat.shiftLeft_eq, highNibble_toNat]
    omega
  exact h

@[simp] theorem grayData_toNat (v : Gray) : (grayData v).toNat = v.toNat := by
  have := v.isLt
  simp only [grayData, BitVec.truncate_eq_setWidth, BitVec.toNat_setWidth]
  omega

/-- A group as a number (20_memory.md R39). -/
theorem group_toNat (s : State) (g : Nat) :
    (s.group g).toNat = 65536 * (s.byte (3 * g + 2)).toNat + 256 * (s.byte (3 * g + 1)).toNat + (s.byte (3 * g)).toNat := by
  have h0 := (s.byte (3 * g)).isLt
  have h1 := (s.byte (3 * g + 1)).isLt
  have inner : (s.byte (3 * g + 1) ++ s.byte (3 * g) : BitVec (8 + 8)).toNat =
      256 * (s.byte (3 * g + 1)).toNat + (s.byte (3 * g)).toNat := by
    rw [BitVec.toNat_append, ← Nat.shiftLeft_add_eq_or_of_lt h0, Nat.shiftLeft_eq]
    omega
  have outer : (s.byte (3 * g + 2) ++ (s.byte (3 * g + 1) ++ s.byte (3 * g) : BitVec (8 + 8)) : BitVec (8 + (8 + 8))).toNat =
      65536 * (s.byte (3 * g + 2)).toNat + (s.byte (3 * g + 1) ++ s.byte (3 * g) : BitVec (8 + 8)).toNat := by
    rw [BitVec.toNat_append, ← Nat.shiftLeft_add_eq_or_of_lt (by omega), Nat.shiftLeft_eq]
    omega
  exact outer.trans (by rw [inner]; omega)

end Sys2Proof.Machine
end

