-- ==== Sys2Proof/Laws/Memory.lean ====
section
/-! SUPPORT. The laws of the buffer's cells: a read after a write, and the canonical form kept by every memory
operation. -/

namespace Sys2Proof.Machine

theorem readCell_filter_ne (m : Memory) (i j : Nat) (h : i ≠ j) :
    readCell (m.filter (fun x => x.1 ≠ i)) j = readCell m j := by
  induction m with
  | nil => rfl
  | cons x m ih =>
    obtain ⟨a, b⟩ := x
    by_cases ha : a = i
    · have hne : a ≠ j := fun e => h (ha ▸ e)
      simpa [readCell, ha, h] using ih
    · by_cases hj : a = j <;> simp_all [readCell]

theorem readCell_filter_eq (m : Memory) (i : Nat) :
    readCell (m.filter (fun x => x.1 ≠ i)) i = unlistedByte := by
  induction m with
  | nil => rfl
  | cons x m ih =>
    obtain ⟨a, b⟩ := x
    by_cases ha : a = i <;> simp_all [readCell]

theorem readCell_insertCell_ne (m : Memory) (i j : Nat) (b : Byte) (h : i ≠ j) :
    readCell (insertCell i b m) j = readCell m j := by
  induction m with
  | nil => simp [insertCell, readCell, h]
  | cons x m ih =>
    obtain ⟨a, y⟩ := x
    by_cases ha : i < a
    · simp [insertCell, ha, readCell, h]
    · rw [insertCell, if_neg ha]
      by_cases hj : a = j
      · simp [readCell, hj]
      · simp [readCell, hj, ih]

theorem readCell_insertCell_eq (m : Memory) (i : Nat) (b : Byte) (h : ∀ x ∈ m, x.1 ≠ i) :
    readCell (insertCell i b m) i = b := by
  induction m with
  | nil => simp [insertCell, readCell]
  | cons x m ih =>
    obtain ⟨a, y⟩ := x
    have hx : a ≠ i := h (a, y) (by simp)
    by_cases ha : i < a
    · simp [insertCell, ha, readCell]
    · simpa [insertCell, ha, readCell, hx] using ih (fun z hz => h z (by simp [hz]))

/-- A read after a write to the same index gives the byte written. -/
@[simp] theorem readCell_writeCell_eq (m : Memory) (i : Nat) (b : Byte) : readCell (writeCell m i b) i = b := by
  by_cases hb : b = unlistedByte
  · simpa [writeCell, hb] using readCell_filter_eq m i
  · simpa [writeCell, hb] using
      readCell_insertCell_eq (m.filter (fun x => x.1 ≠ i)) i b (by simp)

/-- A write leaves every other index alone. -/
theorem readCell_writeCell_ne (m : Memory) (i j : Nat) (b : Byte) (h : i ≠ j) :
    readCell (writeCell m i b) j = readCell m j := by
  by_cases hb : b = unlistedByte
  · simpa [writeCell, hb] using readCell_filter_ne m i j h
  · simpa [writeCell, hb] using
      (readCell_insertCell_ne (m.filter (fun x => x.1 ≠ i)) i j b h).trans (readCell_filter_ne m i j h)

/-- A read after a write, in one equation. -/
theorem readCell_writeCell (m : Memory) (i j : Nat) (b : Byte) :
    readCell (writeCell m i b) j = if i = j then b else readCell m j := by
  by_cases h : i = j
  · subst h; simp
  · simp [h, readCell_writeCell_ne]

theorem mem_insertCell {m : Memory} {i : Nat} {b : Byte} {x : Host.Cell} (h : x ∈ insertCell i b m) :
    x = (i, b) ∨ x ∈ m := by
  induction m with
  | nil => simpa [insertCell] using h
  | cons y m ih =>
    obtain ⟨a, z⟩ := y
    by_cases ha : i < a
    · simpa [insertCell, ha] using h
    · simp only [insertCell, ha, if_false, List.mem_cons] at h
      rcases h with h | h
      · exact .inr (by simp [h])
      · rcases ih h with h | h
        · exact .inl h
        · exact .inr (by simp [h])

/-- A cell of a written buffer is the one written or an old one. -/
theorem mem_writeCell {m : Memory} {i : Nat} {b : Byte} {x : Host.Cell} (h : x ∈ writeCell m i b) :
    x = (i, b) ∨ x ∈ m := by
  by_cases hb : b = unlistedByte
  · rw [writeCell, if_pos hb] at h
    exact .inr (List.mem_of_mem_filter h)
  · rw [writeCell, if_neg hb] at h
    rcases mem_insertCell h with h | h
    · exact .inl h
    · exact .inr (List.mem_of_mem_filter h)

theorem insertCell_rising {m : Memory} {i : Nat} {b : Byte} (hm : m.Pairwise (fun x y => x.1 < y.1))
    (hi : ∀ x ∈ m, x.1 ≠ i) : (insertCell i b m).Pairwise (fun x y => x.1 < y.1) := by
  induction m with
  | nil => simp [insertCell]
  | cons y m ih =>
    obtain ⟨a, z⟩ := y
    rw [List.pairwise_cons] at hm
    have hne : a ≠ i := hi (a, z) (by simp)
    by_cases ha : i < a
    · rw [insertCell, if_pos ha, List.pairwise_cons, List.pairwise_cons]
      refine ⟨fun x hx => ?_, hm⟩
      rcases List.mem_cons.mp hx with rfl | hx
      · exact ha
      · exact Nat.lt_trans ha (hm.1 x hx)
    · rw [insertCell, if_neg ha, List.pairwise_cons]
      refine ⟨fun x hx => ?_, ih hm.2 (fun x hx => hi x (by simp [hx]))⟩
      rcases mem_insertCell hx with rfl | hx
      · simp only; omega
      · exact hm.1 x hx

/-- Every write keeps the canonical form. -/
theorem writeCell_wf {m : Memory} (hm : Memory.wf m) (i : Nat) (b : Byte) : Memory.wf (writeCell m i b) := by
  refine ⟨?_, fun x hx => ?_⟩
  · by_cases hb : b = unlistedByte
    · simpa [writeCell, hb] using hm.1.filter (fun x => decide (x.1 ≠ i))
    · simpa [writeCell, hb] using
        insertCell_rising (b := b) (hm.1.filter (fun x => decide (x.1 ≠ i))) (fun x hx => of_decide_eq_true (List.mem_filter.mp hx).2)
  · by_cases hb : b = unlistedByte
    · rw [writeCell, if_pos hb] at hx
      exact hm.2 x (List.mem_of_mem_filter hx)
    · rcases mem_writeCell hx with rfl | hx
      · exact hb
      · exact hm.2 x hx

/-- The empty buffer is canonical: INIT, TEARDOWN and reset leave it. -/
theorem empty_wf : Memory.wf [] := by simp [Memory.wf]

/-- An index that no cell lists reads as the unlisted byte. -/
theorem readCell_unlisted {m : Memory} {i : Nat} (h : ∀ x ∈ m, x.1 ≠ i) : readCell m i = unlistedByte := by
  induction m with
  | nil => rfl
  | cons y m ih =>
    obtain ⟨a, z⟩ := y
    have hne : a ≠ i := h (a, z) (by simp)
    simpa [readCell, hne] using ih (fun x hx => h x (by simp [hx]))

/-- Canonical buffers that read the same at every index are the same data. -/
theorem wf_ext : ∀ {m₁ m₂ : Memory}, Memory.wf m₁ → Memory.wf m₂ → (∀ i, readCell m₁ i = readCell m₂ i) → m₁ = m₂
  | [], [], _, _, _ => rfl
  | [], (a, b) :: m, _, h₂, h => by
    have := h a
    simp only [readCell, if_true] at this
    exact absurd this.symm (h₂.2 (a, b) (by simp))
  | (a, b) :: m, [], h₁, _, h => by
    have := h a
    simp only [readCell, if_true] at this
    exact absurd this (h₁.2 (a, b) (by simp))
  | (a, b) :: m₁, (c, d) :: m₂, h₁, h₂, h => by
    have l₁ := List.pairwise_cons.mp h₁.1
    have l₂ := List.pairwise_cons.mp h₂.1
    have hb : b ≠ unlistedByte := h₁.2 (a, b) (by simp)
    have hd : d ≠ unlistedByte := h₂.2 (c, d) (by simp)
    have ha := h a
    have hc := h c
    have hac : a = c := by
      rcases Nat.lt_trichotomy a c with hlt | heq | hgt
      · have : readCell m₂ a = unlistedByte := readCell_unlisted (fun x hx => by have := l₂.1 x hx; simp only at this; omega)
        simp [readCell, Nat.ne_of_gt hlt, this] at ha
        exact absurd ha hb
      · exact heq
      · have : readCell m₁ c = unlistedByte := readCell_unlisted (fun x hx => by have := l₁.1 x hx; simp only at this; omega)
        simp [readCell, Nat.ne_of_gt hgt, this] at hc
        exact absurd hc.symm hd
    subst hac
    have hbd : b = d := by simpa [readCell] using ha
    subst hbd
    rw [wf_ext ⟨l₁.2, fun x hx => h₁.2 x (by simp [hx])⟩ ⟨l₂.2, fun x hx => h₂.2 x (by simp [hx])⟩ (fun i => ?_)]
    by_cases hi : a = i
    · subst hi
      rw [readCell_unlisted (fun x hx => by have := l₁.1 x hx; simp only at this; omega),
        readCell_unlisted (fun x hx => by have := l₂.1 x hx; simp only at this; omega)]
    · simpa [readCell, hi] using h i

end Sys2Proof.Machine
end

