-- ==== Sys2Proof/Laws/State.lean ====
section
/-! SUPPORT. One lemma for each field under each update of State, so that no later proof unfolds a record update. -/

namespace Sys2Proof.Machine

-- setBuf
@[simp] theorem setBuf_mode (s : State) (m : Memory) : (s.setBuf m).mode = s.mode := rfl
@[simp] theorem setBuf_devices (s : State) (m : Memory) : (s.setBuf m).devices = s.devices := rfl
@[simp] theorem setBuf_buf (s : State) (m : Memory) : (s.setBuf m).buf = m := rfl
@[simp] theorem setBuf_latch (s : State) (m : Memory) : (s.setBuf m).latch = s.latch := rfl
@[simp] theorem setBuf_blank (s : State) (m : Memory) : (s.setBuf m).blank = s.blank := rfl
@[simp] theorem setBuf_flight (s : State) (m : Memory) : (s.setBuf m).flight = s.flight := rfl
@[simp] theorem setBuf_trace (s : State) (m : Memory) : (s.setBuf m).trace = s.trace := rfl
@[simp] theorem setBuf_responses (s : State) (m : Memory) : (s.setBuf m).responses = s.responses := rfl
@[simp] theorem setBuf_host (s : State) (m : Memory) : (s.setBuf m).host = s.host := rfl
@[simp] theorem setBuf_replies (s : State) (m : Memory) : (s.setBuf m).replies = s.replies := rfl
@[simp] theorem setBuf_draws (s : State) (m : Memory) : (s.setBuf m).draws = s.draws := rfl

-- emit
@[simp] theorem emit_mode (s : State) (e : Event) : (s.emit e).mode = s.mode := rfl
@[simp] theorem emit_devices (s : State) (e : Event) : (s.emit e).devices = s.devices := rfl
@[simp] theorem emit_buf (s : State) (e : Event) : (s.emit e).buf = s.buf := rfl
@[simp] theorem emit_latch (s : State) (e : Event) : (s.emit e).latch = s.latch := rfl
@[simp] theorem emit_blank (s : State) (e : Event) : (s.emit e).blank = s.blank := rfl
@[simp] theorem emit_flight (s : State) (e : Event) : (s.emit e).flight = s.flight := rfl
@[simp] theorem emit_trace (s : State) (e : Event) : (s.emit e).trace = s.trace ++ [e] := rfl
@[simp] theorem emit_responses (s : State) (e : Event) : (s.emit e).responses = s.responses := rfl
@[simp] theorem emit_host (s : State) (e : Event) : (s.emit e).host = s.host := rfl
@[simp] theorem emit_replies (s : State) (e : Event) : (s.emit e).replies = s.replies := rfl
@[simp] theorem emit_draws (s : State) (e : Event) : (s.emit e).draws = s.draws := rfl

-- respond
@[simp] theorem respond_mode (s : State) (r : Response) : (s.respond r).mode = s.mode := rfl
@[simp] theorem respond_devices (s : State) (r : Response) : (s.respond r).devices = s.devices := rfl
@[simp] theorem respond_buf (s : State) (r : Response) : (s.respond r).buf = s.buf := rfl
@[simp] theorem respond_latch (s : State) (r : Response) : (s.respond r).latch = s.latch := rfl
@[simp] theorem respond_blank (s : State) (r : Response) : (s.respond r).blank = s.blank := rfl
@[simp] theorem respond_flight (s : State) (r : Response) : (s.respond r).flight = s.flight := rfl
@[simp] theorem respond_trace (s : State) (r : Response) : (s.respond r).trace = s.trace := rfl
@[simp] theorem respond_responses (s : State) (r : Response) : (s.respond r).responses = s.responses ++ [r] := rfl
@[simp] theorem respond_host (s : State) (r : Response) : (s.respond r).host = s.host := rfl
@[simp] theorem respond_replies (s : State) (r : Response) : (s.respond r).replies = s.replies := rfl
@[simp] theorem respond_draws (s : State) (r : Response) : (s.respond r).draws = s.draws := rfl

-- answerOk
@[simp] theorem answerOk_mode (s : State) (d : Half) : (s.answerOk d).mode = s.mode := rfl
@[simp] theorem answerOk_devices (s : State) (d : Half) : (s.answerOk d).devices = s.devices := rfl
@[simp] theorem answerOk_buf (s : State) (d : Half) : (s.answerOk d).buf = s.buf := rfl
@[simp] theorem answerOk_latch (s : State) (d : Half) : (s.answerOk d).latch = s.latch := rfl
@[simp] theorem answerOk_blank (s : State) (d : Half) : (s.answerOk d).blank = s.blank := rfl
@[simp] theorem answerOk_flight (s : State) (d : Half) : (s.answerOk d).flight = s.flight := rfl
@[simp] theorem answerOk_trace (s : State) (d : Half) : (s.answerOk d).trace = s.trace := rfl
@[simp] theorem answerOk_responses (s : State) (d : Half) : (s.answerOk d).responses = s.responses ++ [⟨.ok, d⟩] := rfl
@[simp] theorem answerOk_host (s : State) (d : Half) : (s.answerOk d).host = s.host := rfl
@[simp] theorem answerOk_replies (s : State) (d : Half) : (s.answerOk d).replies = s.replies := rfl
@[simp] theorem answerOk_draws (s : State) (d : Half) : (s.answerOk d).draws = s.draws := rfl

-- raiseError
@[simp] theorem raiseError_mode (s : State) (e : Status) (d : Half) : (s.raiseError e d).mode = s.mode := rfl
@[simp] theorem raiseError_devices (s : State) (e : Status) (d : Half) : (s.raiseError e d).devices = s.devices := rfl
@[simp] theorem raiseError_buf (s : State) (e : Status) (d : Half) : (s.raiseError e d).buf = s.buf := rfl
@[simp] theorem raiseError_latch (s : State) (e : Status) (d : Half) : (s.raiseError e d).latch = s.latch := rfl
@[simp] theorem raiseError_blank (s : State) (e : Status) (d : Half) : (s.raiseError e d).blank = s.blank := rfl
@[simp] theorem raiseError_flight (s : State) (e : Status) (d : Half) : (s.raiseError e d).flight = s.flight := rfl
@[simp] theorem raiseError_trace (s : State) (e : Status) (d : Half) : (s.raiseError e d).trace = s.trace := rfl
@[simp] theorem raiseError_responses (s : State) (e : Status) (d : Half) : (s.raiseError e d).responses = s.responses ++ [⟨e, d⟩] := rfl
@[simp] theorem raiseError_host (s : State) (e : Status) (d : Half) : (s.raiseError e d).host = s.host := rfl
@[simp] theorem raiseError_replies (s : State) (e : Status) (d : Half) : (s.raiseError e d).replies = s.replies := rfl
@[simp] theorem raiseError_draws (s : State) (e : Status) (d : Half) : (s.raiseError e d).draws = s.draws := rfl

-- setFlight
@[simp] theorem setFlight_mode (s : State) (f : Option Flight) : (s.setFlight f).mode = s.mode := rfl
@[simp] theorem setFlight_devices (s : State) (f : Option Flight) : (s.setFlight f).devices = s.devices := rfl
@[simp] theorem setFlight_buf (s : State) (f : Option Flight) : (s.setFlight f).buf = s.buf := rfl
@[simp] theorem setFlight_latch (s : State) (f : Option Flight) : (s.setFlight f).latch = s.latch := rfl
@[simp] theorem setFlight_blank (s : State) (f : Option Flight) : (s.setFlight f).blank = s.blank := rfl
@[simp] theorem setFlight_flight (s : State) (f : Option Flight) : (s.setFlight f).flight = f := rfl
@[simp] theorem setFlight_trace (s : State) (f : Option Flight) : (s.setFlight f).trace = s.trace := rfl
@[simp] theorem setFlight_responses (s : State) (f : Option Flight) : (s.setFlight f).responses = s.responses := rfl
@[simp] theorem setFlight_host (s : State) (f : Option Flight) : (s.setFlight f).host = s.host := rfl
@[simp] theorem setFlight_replies (s : State) (f : Option Flight) : (s.setFlight f).replies = s.replies := rfl
@[simp] theorem setFlight_draws (s : State) (f : Option Flight) : (s.setFlight f).draws = s.draws := rfl

-- setReplies
@[simp] theorem setReplies_mode (s : State) (rs : List TxReply) : (s.setReplies rs).mode = s.mode := rfl
@[simp] theorem setReplies_devices (s : State) (rs : List TxReply) : (s.setReplies rs).devices = s.devices := rfl
@[simp] theorem setReplies_buf (s : State) (rs : List TxReply) : (s.setReplies rs).buf = s.buf := rfl
@[simp] theorem setReplies_latch (s : State) (rs : List TxReply) : (s.setReplies rs).latch = s.latch := rfl
@[simp] theorem setReplies_blank (s : State) (rs : List TxReply) : (s.setReplies rs).blank = s.blank := rfl
@[simp] theorem setReplies_flight (s : State) (rs : List TxReply) : (s.setReplies rs).flight = s.flight := rfl
@[simp] theorem setReplies_trace (s : State) (rs : List TxReply) : (s.setReplies rs).trace = s.trace := rfl
@[simp] theorem setReplies_responses (s : State) (rs : List TxReply) : (s.setReplies rs).responses = s.responses := rfl
@[simp] theorem setReplies_host (s : State) (rs : List TxReply) : (s.setReplies rs).host = s.host := rfl
@[simp] theorem setReplies_replies (s : State) (rs : List TxReply) : (s.setReplies rs).replies = rs := rfl
@[simp] theorem setReplies_draws (s : State) (rs : List TxReply) : (s.setReplies rs).draws = s.draws := rfl

-- setHost
@[simp] theorem setHost_mode (s : State) (is : List HostInput) : (s.setHost is).mode = s.mode := rfl
@[simp] theorem setHost_devices (s : State) (is : List HostInput) : (s.setHost is).devices = s.devices := rfl
@[simp] theorem setHost_buf (s : State) (is : List HostInput) : (s.setHost is).buf = s.buf := rfl
@[simp] theorem setHost_latch (s : State) (is : List HostInput) : (s.setHost is).latch = s.latch := rfl
@[simp] theorem setHost_blank (s : State) (is : List HostInput) : (s.setHost is).blank = s.blank := rfl
@[simp] theorem setHost_flight (s : State) (is : List HostInput) : (s.setHost is).flight = s.flight := rfl
@[simp] theorem setHost_trace (s : State) (is : List HostInput) : (s.setHost is).trace = s.trace := rfl
@[simp] theorem setHost_responses (s : State) (is : List HostInput) : (s.setHost is).responses = s.responses := rfl
@[simp] theorem setHost_host (s : State) (is : List HostInput) : (s.setHost is).host = is := rfl
@[simp] theorem setHost_replies (s : State) (is : List HostInput) : (s.setHost is).replies = s.replies := rfl
@[simp] theorem setHost_draws (s : State) (is : List HostInput) : (s.setHost is).draws = s.draws := rfl

-- countDraw
@[simp] theorem countDraw_mode (s : State) : s.countDraw.mode = s.mode := rfl
@[simp] theorem countDraw_devices (s : State) : s.countDraw.devices = s.devices := rfl
@[simp] theorem countDraw_buf (s : State) : s.countDraw.buf = s.buf := rfl
@[simp] theorem countDraw_latch (s : State) : s.countDraw.latch = s.latch := rfl
@[simp] theorem countDraw_blank (s : State) : s.countDraw.blank = s.blank := rfl
@[simp] theorem countDraw_flight (s : State) : s.countDraw.flight = s.flight := rfl
@[simp] theorem countDraw_trace (s : State) : s.countDraw.trace = s.trace := rfl
@[simp] theorem countDraw_responses (s : State) : s.countDraw.responses = s.responses := rfl
@[simp] theorem countDraw_host (s : State) : s.countDraw.host = s.host := rfl
@[simp] theorem countDraw_replies (s : State) : s.countDraw.replies = s.replies := rfl
@[simp] theorem countDraw_draws (s : State) : s.countDraw.draws = s.draws + 1 := rfl

-- driveLatch
@[simp] theorem driveLatch_mode (s : State) (l : Level) : (s.drivePin .latch l).mode = s.mode := rfl
@[simp] theorem driveLatch_devices (s : State) (l : Level) : (s.drivePin .latch l).devices = s.devices := rfl
@[simp] theorem driveLatch_buf (s : State) (l : Level) : (s.drivePin .latch l).buf = s.buf := rfl
@[simp] theorem driveLatch_latch (s : State) (l : Level) : (s.drivePin .latch l).latch = l := rfl
@[simp] theorem driveLatch_blank (s : State) (l : Level) : (s.drivePin .latch l).blank = s.blank := rfl
@[simp] theorem driveLatch_flight (s : State) (l : Level) : (s.drivePin .latch l).flight = s.flight := rfl
@[simp] theorem driveLatch_trace (s : State) (l : Level) : (s.drivePin .latch l).trace = s.trace ++ [.pin .latch l] := rfl
@[simp] theorem driveLatch_responses (s : State) (l : Level) : (s.drivePin .latch l).responses = s.responses := rfl
@[simp] theorem driveLatch_host (s : State) (l : Level) : (s.drivePin .latch l).host = s.host := rfl
@[simp] theorem driveLatch_replies (s : State) (l : Level) : (s.drivePin .latch l).replies = s.replies := rfl
@[simp] theorem driveLatch_draws (s : State) (l : Level) : (s.drivePin .latch l).draws = s.draws := rfl

-- driveBlank
@[simp] theorem driveBlank_mode (s : State) (l : Level) : (s.drivePin .blank l).mode = s.mode := rfl
@[simp] theorem driveBlank_devices (s : State) (l : Level) : (s.drivePin .blank l).devices = s.devices := rfl
@[simp] theorem driveBlank_buf (s : State) (l : Level) : (s.drivePin .blank l).buf = s.buf := rfl
@[simp] theorem driveBlank_latch (s : State) (l : Level) : (s.drivePin .blank l).latch = s.latch := rfl
@[simp] theorem driveBlank_blank (s : State) (l : Level) : (s.drivePin .blank l).blank = l := rfl
@[simp] theorem driveBlank_flight (s : State) (l : Level) : (s.drivePin .blank l).flight = s.flight := rfl
@[simp] theorem driveBlank_trace (s : State) (l : Level) : (s.drivePin .blank l).trace = s.trace ++ [.pin .blank l] := rfl
@[simp] theorem driveBlank_responses (s : State) (l : Level) : (s.drivePin .blank l).responses = s.responses := rfl
@[simp] theorem driveBlank_host (s : State) (l : Level) : (s.drivePin .blank l).host = s.host := rfl
@[simp] theorem driveBlank_replies (s : State) (l : Level) : (s.drivePin .blank l).replies = s.replies := rfl
@[simp] theorem driveBlank_draws (s : State) (l : Level) : (s.drivePin .blank l).draws = s.draws := rfl

-- createHandle
@[simp] theorem createHandle_mode (n : Half) (s : State) : (createHandle n s).mode = .ready := rfl
@[simp] theorem createHandle_devices (n : Half) (s : State) : (createHandle n s).devices = n := rfl
@[simp] theorem createHandle_buf (n : Half) (s : State) : (createHandle n s).buf = [] := rfl
@[simp] theorem createHandle_latch (n : Half) (s : State) : (createHandle n s).latch = s.latch := rfl
@[simp] theorem createHandle_blank (n : Half) (s : State) : (createHandle n s).blank = .low := rfl
@[simp] theorem createHandle_flight (n : Half) (s : State) : (createHandle n s).flight = s.flight := rfl
@[simp] theorem createHandle_trace (n : Half) (s : State) : (createHandle n s).trace = s.trace ++ [.pin .blank .low] := rfl
@[simp] theorem createHandle_responses (n : Half) (s : State) : (createHandle n s).responses = s.responses ++ [⟨.ok, 0⟩] := rfl
@[simp] theorem createHandle_host (n : Half) (s : State) : (createHandle n s).host = s.host := rfl
@[simp] theorem createHandle_replies (n : Half) (s : State) : (createHandle n s).replies = s.replies := rfl
@[simp] theorem createHandle_draws (n : Half) (s : State) : (createHandle n s).draws = s.draws := rfl

-- releaseHandle
@[simp] theorem releaseHandle_mode (s : State) : (releaseHandle s).mode = .uninitialized := rfl
@[simp] theorem releaseHandle_devices (s : State) : (releaseHandle s).devices = Config.staleDevices s.draws := rfl
@[simp] theorem releaseHandle_buf (s : State) : (releaseHandle s).buf = [] := rfl
@[simp] theorem releaseHandle_latch (s : State) : (releaseHandle s).latch = s.latch := rfl
@[simp] theorem releaseHandle_blank (s : State) : (releaseHandle s).blank = s.blank := rfl
@[simp] theorem releaseHandle_flight (s : State) : (releaseHandle s).flight = s.flight := rfl
@[simp] theorem releaseHandle_trace (s : State) : (releaseHandle s).trace = s.trace := rfl
@[simp] theorem releaseHandle_responses (s : State) : (releaseHandle s).responses = s.responses := rfl
@[simp] theorem releaseHandle_host (s : State) : (releaseHandle s).host = s.host := rfl
@[simp] theorem releaseHandle_replies (s : State) : (releaseHandle s).replies = s.replies := rfl
@[simp] theorem releaseHandle_draws (s : State) : (releaseHandle s).draws = s.draws + 1 := rfl

-- hardwareReset
@[simp] theorem hardwareReset_mode (is : List HostInput) (s : State) : (hardwareReset is s).mode = .uninitialized := rfl
@[simp] theorem hardwareReset_devices (is : List HostInput) (s : State) : (hardwareReset is s).devices = 0 := rfl
@[simp] theorem hardwareReset_buf (is : List HostInput) (s : State) : (hardwareReset is s).buf = [] := rfl
@[simp] theorem hardwareReset_latch (is : List HostInput) (s : State) : (hardwareReset is s).latch = .low := rfl
@[simp] theorem hardwareReset_blank (is : List HostInput) (s : State) : (hardwareReset is s).blank = .high := rfl
@[simp] theorem hardwareReset_flight (is : List HostInput) (s : State) : (hardwareReset is s).flight = none := rfl
@[simp] theorem hardwareReset_trace (is : List HostInput) (s : State) : (hardwareReset is s).trace = [] := rfl
@[simp] theorem hardwareReset_responses (is : List HostInput) (s : State) : (hardwareReset is s).responses = [] := rfl
@[simp] theorem hardwareReset_host (is : List HostInput) (s : State) : (hardwareReset is s).host = is := rfl
@[simp] theorem hardwareReset_replies (is : List HostInput) (s : State) : (hardwareReset is s).replies = s.replies := rfl
@[simp] theorem hardwareReset_draws (is : List HostInput) (s : State) : (hardwareReset is s).draws = s.draws := rfl

-- the buffer's size
@[simp] theorem setBuf_bufSize (s : State) (m : Memory) : (s.setBuf m).bufSize = s.bufSize := rfl
@[simp] theorem emit_bufSize (s : State) (e : Event) : (s.emit e).bufSize = s.bufSize := rfl
@[simp] theorem respond_bufSize (s : State) (r : Response) : (s.respond r).bufSize = s.bufSize := rfl
@[simp] theorem answerOk_bufSize (s : State) (d : Half) : (s.answerOk d).bufSize = s.bufSize := rfl
@[simp] theorem raiseError_bufSize (s : State) (e : Status) (d : Half) : (s.raiseError e d).bufSize = s.bufSize := rfl
@[simp] theorem setFlight_bufSize (s : State) (f : Option Flight) : (s.setFlight f).bufSize = s.bufSize := rfl
@[simp] theorem setReplies_bufSize (s : State) (rs : List TxReply) : (s.setReplies rs).bufSize = s.bufSize := rfl
@[simp] theorem setHost_bufSize (s : State) (is : List HostInput) : (s.setHost is).bufSize = s.bufSize := rfl
@[simp] theorem countDraw_bufSize (s : State) : s.countDraw.bufSize = s.bufSize := rfl
@[simp] theorem driveLatch_bufSize (s : State) (l : Level) : (s.drivePin .latch l).bufSize = s.bufSize := rfl
@[simp] theorem driveBlank_bufSize (s : State) (l : Level) : (s.drivePin .blank l).bufSize = s.bufSize := rfl

-- whether the latch pulse is cut
@[simp] theorem setBuf_cutsPulse (s : State) (m : Memory) : (s.setBuf m).cutsPulse = s.cutsPulse := rfl
@[simp] theorem emit_cutsPulse (s : State) (e : Event) : (s.emit e).cutsPulse = s.cutsPulse := rfl
@[simp] theorem respond_cutsPulse (s : State) (r : Response) : (s.respond r).cutsPulse = s.cutsPulse := rfl
@[simp] theorem answerOk_cutsPulse (s : State) (d : Half) : (s.answerOk d).cutsPulse = s.cutsPulse := rfl
@[simp] theorem raiseError_cutsPulse (s : State) (e : Status) (d : Half) : (s.raiseError e d).cutsPulse = s.cutsPulse := rfl
@[simp] theorem setFlight_cutsPulse (s : State) (f : Option Flight) : (s.setFlight f).cutsPulse = s.cutsPulse := rfl
@[simp] theorem setReplies_cutsPulse (s : State) (rs : List TxReply) : (s.setReplies rs).cutsPulse = s.cutsPulse := rfl
@[simp] theorem countDraw_cutsPulse (s : State) : s.countDraw.cutsPulse = s.cutsPulse := rfl
@[simp] theorem driveLatch_cutsPulse (s : State) (l : Level) : (s.drivePin .latch l).cutsPulse = s.cutsPulse := rfl
@[simp] theorem driveBlank_cutsPulse (s : State) (l : Level) : (s.drivePin .blank l).cutsPulse = s.cutsPulse := rfl

/-- While ready the buffer has `36 x D` bytes (10_state.md R18). -/
theorem bufSize_ready {s : State} (h : s.mode = .ready) : s.bufSize = bufLength s.devices := by
  simp [State.bufSize, h]

/-- While uninitialized there is no buffer (10_state.md R18). -/
theorem bufSize_uninitialized {s : State} (h : s.mode = .uninitialized) : s.bufSize = 0 := by
  simp [State.bufSize, h]

end Sys2Proof.Machine
end

