-- ==== Sys2Proof/Laws/Ops.lean ====
section
/-! SUPPORT. For each shared operation, one lemma that says once everything it can do. -/

namespace Sys2Proof.Machine

-- bytes

theorem memRead_eq {s : State} {i : Nat} (h : i < s.bufSize) : memRead s i = .ok (s.byte i) := by
  simp [memRead, h, State.byte]

/-- A read answers exactly for an existing index, with the byte there. -/
theorem memRead_ok_iff {s : State} {i : Nat} {b : Byte} : memRead s i = .ok b ↔ i < s.bufSize ∧ b = s.byte i := by
  by_cases h : i < s.bufSize <;> simp [memRead, h, State.byte, eq_comm]

/-- A read faults exactly for an index that does not exist. -/
theorem memRead_error_iff {s : State} {i : Nat} {f : Fault} : memRead s i = .error f ↔ s.bufSize ≤ i := by
  cases f
  by_cases h : i < s.bufSize <;> simp [memRead, h]; omega

theorem memWrite_eq {s : State} {i : Nat} (b : Byte) (h : i < s.bufSize) :
    memWrite s i b = .ok (s.setBuf (writeCell s.buf i b)) := by
  simp [memWrite, h]

/-- A write answers exactly for an existing index, and changes the buffer alone. -/
theorem memWrite_ok_iff {s t : State} {i : Nat} {b : Byte} :
    memWrite s i b = .ok t ↔ i < s.bufSize ∧ t = s.setBuf (writeCell s.buf i b) := by
  by_cases h : i < s.bufSize <;> simp [memWrite, h, eq_comm]

@[simp] theorem byte_setBuf_writeCell (s : State) (m : Memory) (i j : Nat) (b : Byte) :
    (s.setBuf (writeCell m i b)).byte j = if i = j then b else readCell m j :=
  readCell_writeCell m i j b

-- addresses

theorem baseIndex_even (g : Nat) : baseIndex (2 * g) = 3 * g := by unfold baseIndex; omega

theorem baseIndex_odd (g : Nat) : baseIndex (2 * g + 1) = 3 * g + 1 := by unfold baseIndex; omega

/-- A valid channel never leaves the buffer (20_memory.md R41). -/
theorem validChannel_in_buffer {d c : Half} (h : validChannel d c = true) : baseIndex c.toNat + 1 < bufLength d := by
  have hc : c.toNat < 24 * d.toNat := of_decide_eq_true h
  simp only [baseIndex, bufLength, Config.bytesPerDevice]
  omega

-- channels

/-- SET's read-modify-write, everything it does: it answers with the buffer alone changed, and there only the two bytes
of the channel, as 20_memory.md R37 and R38 give them. -/
theorem storeChannel_spec {s : State} {c : Nat} (v : Gray) (h : baseIndex c + 1 < s.bufSize) :
    ∃ m, storeChannel s c v = .ok (s.setBuf m) ∧ (Memory.wf s.buf → Memory.wf m) ∧
      (∀ x ∈ m, x ∈ s.buf ∨ x.1 = baseIndex c ∨ x.1 = baseIndex c + 1) ∧
      ∀ i, readCell m i =
        if i = baseIndex c then (if c % 2 = 0 then evenByte v else oddShared (s.byte i) v)
        else if i = baseIndex c + 1 then (if c % 2 = 0 then evenShared (s.byte i) v else oddByte v)
        else s.byte i := by
  have h0 : baseIndex c < s.bufSize := by omega
  have keep : ∀ b b' : Byte, Memory.wf s.buf →
      Memory.wf (writeCell (writeCell s.buf (baseIndex c) b) (baseIndex c + 1) b') :=
    fun b b' w => writeCell_wf (writeCell_wf w _ _) _ _
  have cells : ∀ (b b' : Byte) (x : Host.Cell), x ∈ writeCell (writeCell s.buf (baseIndex c) b) (baseIndex c + 1) b' →
      x ∈ s.buf ∨ x.1 = baseIndex c ∨ x.1 = baseIndex c + 1 := by
    intro b b' x hx
    rcases mem_writeCell hx with rfl | hx
    · exact .inr (.inr rfl)
    · rcases mem_writeCell hx with rfl | hx
      · exact .inr (.inl rfl)
      · exact .inl hx
  by_cases hc : c % 2 = 0
  · refine ⟨writeCell (writeCell s.buf (baseIndex c) (evenByte v)) (baseIndex c + 1)
      (evenShared (s.byte (baseIndex c + 1)) v), ?_, keep _ _, cells _ _, fun i => ?_⟩
    · simp only [storeChannel, hc, if_true, memWrite_eq _ h0, bind, Except.bind]
      rw [memRead_eq (by simpa using h)]
      simp only [memWrite_eq _ (show baseIndex c + 1 < (s.setBuf _).bufSize by simpa using h)]
      simp [State.setBuf, State.byte, readCell_writeCell]
    · simp only [readCell_writeCell, hc, if_true]
      by_cases h1 : i = baseIndex c
      · subst h1; simp
      · by_cases h2 : i = baseIndex c + 1
        · subst h2; simp
        · simp [h1, h2, Ne.symm h1, Ne.symm h2, State.byte]
  · refine ⟨writeCell (writeCell s.buf (baseIndex c) (oddShared (s.byte (baseIndex c)) v)) (baseIndex c + 1)
      (oddByte v), ?_, keep _ _, cells _ _, fun i => ?_⟩
    · simp only [storeChannel, hc, if_false, memRead_eq h0, bind, Except.bind, memWrite_eq _ h0]
      rw [memWrite_eq _ (by simpa using h)]
      simp [State.setBuf]
    · simp only [readCell_writeCell, hc, if_false]
      by_cases h1 : i = baseIndex c
      · subst h1; simp
      · by_cases h2 : i = baseIndex c + 1
        · subst h2; simp
        · simp [h1, h2, Ne.symm h1, Ne.symm h2, State.byte]

/-- GET's assembly, everything it does: the byte and the nibble of the channel put together. -/
theorem loadChannel_spec {s : State} {c : Nat} (h : baseIndex c + 1 < s.bufSize) :
    loadChannel s c = .ok (if c % 2 = 0 then evenValue (s.byte (baseIndex c)) (s.byte (baseIndex c + 1))
      else oddValue (s.byte (baseIndex c)) (s.byte (baseIndex c + 1))) := by
  have h0 : baseIndex c < s.bufSize := by omega
  simp only [loadChannel, memRead_eq h0, memRead_eq h, bind, Except.bind, pure, Except.pure]
  split <;> rfl

-- the reset input

/-- A step takes a reset input exactly at the head of the host's inputs: one asserted at once whatever is in flight, one in
the pulse when LATCH is high for it or no FLUSH is in flight. -/
theorem resetDue_eq_some_iff {s : State} {later : List HostInput} :
    s.resetDue = some later ↔ s.host = .reset :: later ∨
      (s.host = .resetInPulse :: later ∧ (s.flight = none ∨ s.flight = some .pulse)) := by
  rcases hh : s.host with _ | ⟨_ | _ | _, l⟩ <;> rcases hf : s.flight with _ | _ | _ | _ <;>
    simp [State.resetDue, hh, hf]

/-- With no input of the host no reset is due. -/
theorem resetDue_nil {s : State} (h : s.host = []) : s.resetDue = none := by simp [State.resetDue, h]

/-- With a command next no reset is due. -/
theorem resetDue_command {s : State} {w : CommandWord} {l : List HostInput} (h : s.host = .command w :: l) :
    s.resetDue = none := by simp [State.resetDue, h]

-- replies

/-- The next reply takes nothing but the reply: the first listed one, or a free draw. -/
theorem nextReply_cases (s : State) :
    (∃ r rest, s.replies = r :: rest ∧ s.nextReply = (r, s.setReplies rest)) ∨
    (s.replies = [] ∧ s.nextReply = (Config.txReply s.draws, s.countDraw)) := by
  cases h : s.replies with
  | nil => exact .inr ⟨rfl, by simp [State.nextReply, h]⟩
  | cons r rest => exact .inl ⟨r, rest, rfl, by simp [State.nextReply, h]⟩

/-- What taking a reply leaves alone. -/
theorem nextReply_frame (s : State) :
    s.nextReply.2.mode = s.mode ∧ s.nextReply.2.devices = s.devices ∧ s.nextReply.2.buf = s.buf ∧
    s.nextReply.2.latch = s.latch ∧ s.nextReply.2.blank = s.blank ∧ s.nextReply.2.flight = s.flight ∧
    s.nextReply.2.trace = s.trace ∧ s.nextReply.2.responses = s.responses ∧ s.nextReply.2.host = s.host ∧
    s.nextReply.2.bufSize = s.bufSize ∧ s.nextReply.2.cutsPulse = s.cutsPulse := by
  rcases nextReply_cases s with ⟨r, rest, _, h⟩ | ⟨_, h⟩ <;> simp [h]

-- FLUSH

/-- How a run of bytes from `n-1` down ends, after `k` of them were answered `ok`. -/
def SendEnd (n k : Nat) (s t : State) : Prop :=
  let sent := s.trace ++ (List.range k).map (fun j => Event.tx (s.byte (n - 1 - j)) .ok)
  (k = n ∧ t.trace = sent ++ [.pin .latch .high, .pin .latch .low] ∧ t.responses = s.responses ++ [⟨.ok, 0⟩] ∧
    t.flight = none ∧ t.latch = .low ∧ s.cutsPulse = false) ∨
  (k = n ∧ t.trace = sent ++ [.pin .latch .high] ∧ t.responses = s.responses ∧ t.flight = some .pulse ∧ t.latch = .high ∧
    s.cutsPulse = true) ∨
  (k < n ∧ t.trace = sent ++ [.tx (s.byte (n - 1 - k)) .fail] ∧ t.responses = s.responses ++ [⟨.transportError, 0⟩] ∧
    t.flight = none ∧ t.latch = s.latch) ∨
  (k < n ∧ t.trace = sent ∧ t.responses = s.responses ∧ t.flight = some (.wait (n - 1 - k)) ∧ t.latch = s.latch)

/-- Everything the latch pulse can do: it ends the FLUSH, or the reset that is to fall inside it leaves LATCH high. -/
theorem latchPulse_cases (s : State) :
    (s.cutsPulse = false ∧ latchPulse s = endPulse (s.drivePin .latch .high)) ∨
    (s.cutsPulse = true ∧ latchPulse s = (s.drivePin .latch .high).setFlight (some .pulse)) := by
  cases h : s.cutsPulse <;> simp [latchPulse, h]

/-- Everything the sending of bytes can do: some bytes are answered `ok`, then it ends with the pulse, in the pulse that
a reset cuts, with a failed byte, or waiting; and it leaves the mode, the device count, the buffer, BLANK and the host alone. -/
theorem sendBytes_cases {n : Nat} {s t : State} (h : sendBytes n s = .ok t) :
    (t.mode = s.mode ∧ t.devices = s.devices ∧ t.buf = s.buf ∧ t.blank = s.blank ∧ t.host = s.host) ∧
    ∃ k ≤ n, SendEnd n k s t := by
  induction n generalizing s with
  | zero =>
    simp only [sendBytes, Except.ok.injEq] at h
    subst h
    rcases latchPulse_cases s with ⟨hc, e⟩ | ⟨hc, e⟩ <;> rw [e]
    · exact ⟨by simp [endPulse], 0, Nat.le_refl _, .inl (by simp [endPulse, hc])⟩
    · exact ⟨by simp, 0, Nat.le_refl _, .inr (.inl (by simp [hc]))⟩
  | succ n ih =>
    obtain ⟨f1, f2, f3, f4, f5, f6, f7, f8, f9, f10, f11⟩ := nextReply_frame s
    rcases hq : s.nextReply with ⟨r, s₁⟩
    rw [hq] at f1 f2 f3 f4 f5 f6 f7 f8 f9 f10 f11
    dsimp only at f1 f2 f3 f4 f5 f6 f7 f8 f9 f10 f11
    by_cases hn : n < s.bufSize
    · simp only [sendBytes, memRead_eq hn, bind, Except.bind, hq] at h
      cases r with
      | notYet =>
        simp only [pure, Except.pure, Except.ok.injEq] at h
        subst h
        exact ⟨by simp_all, 0, Nat.zero_le _, .inr (.inr (.inr (by simp_all)))⟩
      | answer a =>
        cases a with
        | fail =>
          simp only [pure, Except.pure, Except.ok.injEq] at h
          subst h
          exact ⟨by simp_all, 0, Nat.zero_le _, .inr (.inr (.inl (by simp_all)))⟩
        | ok =>
          simp only at h
          obtain ⟨⟨g1, g2, g3, g4, g5⟩, k, hk, e⟩ := ih h
          refine ⟨by simp_all, k + 1, by omega, ?_⟩
          have hb : ∀ j, (s₁.emit (.tx (s.byte n) .ok)).byte j = s.byte j := fun j => by simp [State.byte, f3]
          have hmap : s.trace ++ (List.range (k + 1)).map (fun j => Event.tx (s.byte (n + 1 - 1 - j)) .ok) =
              (s₁.emit (.tx (s.byte n) .ok)).trace ++ (List.range k).map (fun j => Event.tx (s.byte (n - 1 - j)) .ok) := by
            rw [List.range_succ_eq_map, emit_trace, f7]
            simp [Function.comp_def, Nat.sub_sub, Nat.add_comm]
          have hsub : n + 1 - 1 - (k + 1) = n - 1 - k := by omega
          simp only [SendEnd, hmap, hsub]
          simp only [SendEnd, hb, emit_responses, emit_latch, emit_cutsPulse, f8, f4, f11] at e
          rcases e with ⟨rfl, e⟩ | ⟨rfl, e⟩ | ⟨hk', e⟩ | ⟨hk', e⟩
          · exact .inl ⟨rfl, e⟩
          · exact .inr (.inl ⟨rfl, e⟩)
          · exact .inr (.inr (.inl ⟨by omega, e⟩))
          · exact .inr (.inr (.inr ⟨by omega, e⟩))
    · have herr : memRead s n = .error .bufferIndexOutOfRange := memRead_error_iff.mpr (Nat.le_of_not_lt hn)
      simp only [sendBytes, herr, bind, Except.bind] at h
      cases h

/-- The sending of existing bytes never faults. -/
theorem sendBytes_total {n : Nat} {s : State} (h : n ≤ s.bufSize) : ∃ t, sendBytes n s = .ok t := by
  induction n generalizing s with
  | zero => exact ⟨_, rfl⟩
  | succ n ih =>
    obtain ⟨_, _, _, _, _, _, _, _, _, f10, _⟩ := nextReply_frame s
    rcases hq : s.nextReply with ⟨r, s₁⟩
    rw [hq] at f10
    simp only [sendBytes, memRead_eq (show n < s.bufSize by omega), bind, Except.bind, hq]
    cases r with
    | notYet => exact ⟨_, rfl⟩
    | answer a =>
      cases a with
      | fail => exact ⟨_, rfl⟩
      | ok => exact ih (by rw [emit_bufSize, f10]; omega)

/-- A FLUSH in flight goes on in one of two ways: it ends its pulse, or it sends the bytes from the one it is at. -/
theorem resumeFlight_cases {f : Flight} {s t : State} (h : resumeFlight f s = .ok t) :
    (f = .pulse ∧ t = endPulse s) ∨ ∃ i, (f = .send i ∨ f = .wait i) ∧ sendBytes (i + 1) s = .ok t := by
  cases f with
  | send i => exact .inr ⟨i, .inl rfl, h⟩
  | wait i => exact .inr ⟨i, .inr rfl, h⟩
  | pulse => cases h; exact .inl ⟨rfl, rfl⟩

/-- With no FLUSH in flight the small-step form is at its end. -/
theorem flushTransition_idle {s : State} (h : s.flight = none) : flushTransition s = .ok s := by
  simp [flushTransition, h]

/-- The next reply does not depend on the FLUSH in flight. -/
theorem nextReply_setFlight (s : State) (f : Option Flight) :
    (s.setFlight f).nextReply = (s.nextReply.1, s.nextReply.2.setFlight f) := by
  obtain ⟨_, _, _, _, _, _, _, _, _, rs, _⟩ := s
  cases rs <;> rfl

-- the mode test and the outcomes

/-- The mode test answers a next state only in `ready`, and then the meaning's. -/
theorem whenReady_next {s t : State} {r : Refusal} {o : Host.Outcome State Fault Refusal}
    (h : whenReady s r o = .next t) : s.mode = .ready ∧ o = .next t := by
  cases hm : s.mode <;> simp_all [whenReady]

theorem whenReady_ready {s : State} {r : Refusal} {o : Host.Outcome State Fault Refusal} (h : s.mode = .ready) :
    whenReady s r o = o := by
  simp [whenReady, h]

theorem whenReady_uninitialized {s : State} {r : Refusal} {o : Host.Outcome State Fault Refusal}
    (h : s.mode = .uninitialized) : whenReady s r o = .refused r := by
  simp [whenReady, h]

theorem toOutcome_next {e : Except Fault State} {t : State} (h : toOutcome e = .next t) : e = .ok t := by
  cases e <;> simp_all [toOutcome]

/-- INIT, everything it can do: a new handle, or the capacity error with nothing but the response; only from
`uninitialized`, with at least one device (41_chain_ops.md R79, R80). -/
theorem initWithCapacity_next {cap : Nat} {count : Half} {s t : State} (h : initWithCapacity cap count s = .next t) :
    s.mode = .uninitialized ∧ count ≠ 0 ∧
    ((count.toNat ≤ cap ∧ t = createHandle count s) ∨
     (cap < count.toNat ∧ t = s.raiseError .resourceExhausted 0)) := by
  unfold initWithCapacity at h
  split at h
  · cases h
  · next hm =>
    split at h
    · cases h
    · next hz =>
      split at h
      · next hc => cases h; exact ⟨hm, hz, .inr ⟨hc, rfl⟩⟩
      · next hc => cases h; exact ⟨hm, hz, .inl ⟨Nat.le_of_not_lt hc, rfl⟩⟩

end Sys2Proof.Machine
end

