-- ==== Sys2Proof/Laws/Channels.lean ====
section
/-! SUPPORT. The stored value of a channel, by the group view of 20_memory.md R39, is what GET assembles, and SET's
read-modify-write changes it for its own channel alone. -/

namespace Sys2Proof.Machine

theorem channel_even (s : State) (g : Nat) : s.channel (2 * g) = evenValue (s.byte (3 * g)) (s.byte (3 * g + 1)) := by
  apply BitVec.eq_of_toNat_eq
  have h0 := (s.byte (3 * g)).isLt
  have h1 := (s.byte (3 * g + 1)).isLt
  rw [evenValue_toNat]
  simp only [State.channel, Nat.mul_mod_right, if_true, show 2 * g / 2 = g by omega, BitVec.extractLsb'_toNat,
    group_toNat, Nat.shiftRight_eq_div_pow]
  omega

theorem channel_odd (s : State) (g : Nat) :
    s.channel (2 * g + 1) = oddValue (s.byte (3 * g + 1)) (s.byte (3 * g + 2)) := by
  apply BitVec.eq_of_toNat_eq
  have h0 := (s.byte (3 * g)).isLt
  have h1 := (s.byte (3 * g + 1)).isLt
  have h2 := (s.byte (3 * g + 2)).isLt
  rw [oddValue_toNat]
  simp only [State.channel, show (2 * g + 1) % 2 = 1 by omega, show ¬(1 = 0) by decide, if_false,
    show (2 * g + 1) / 2 = g by omega, BitVec.extractLsb'_toNat, group_toNat, Nat.shiftRight_eq_div_pow]
  omega

/-- What GET assembles is the group view's value. -/
theorem loadChannel_channel {s : State} {c : Nat} (h : baseIndex c + 1 < s.bufSize) :
    loadChannel s c = .ok (s.channel c) := by
  rw [loadChannel_spec h]
  rcases Nat.even_or_odd' c with ⟨g, rfl | rfl⟩
  · simp [baseIndex_even, channel_even]
  · rw [if_neg (by omega), baseIndex_odd, channel_odd]

/-- SET's read-modify-write stores its value in its channel and leaves every other channel's value alone. -/
theorem storeChannel_channel {s : State} {c : Nat} (v : Gray) (h : baseIndex c + 1 < s.bufSize) :
    ∃ m, storeChannel s c v = .ok (s.setBuf m) ∧
      ∀ t : State, t.buf = m → ∀ c', t.channel c' = if c' = c then v else s.channel c' := by
  obtain ⟨m, h1, _, _, h5⟩ := storeChannel_spec v h
  refine ⟨m, h1, fun t ht c' => ?_⟩
  have hb : ∀ i, t.byte i = readCell m i := fun i => by simp [State.byte, ht]
  have hv := v.isLt
  apply BitVec.eq_of_toNat_eq
  rcases Nat.even_or_odd' c with ⟨g, rfl | rfl⟩ <;> rcases Nat.even_or_odd' c' with ⟨g', rfl | rfl⟩
  · by_cases hg : g' = g
    · subst hg
      rw [channel_even, evenValue_toNat, hb, hb, h5, h5, baseIndex_even]
      simp [evenByte_toNat, evenShared_toNat]
      omega
    · rw [channel_even, if_neg (by omega), channel_even, hb, hb, h5, h5, baseIndex_even]
      rw [if_neg (by omega), if_neg (by omega), if_neg (by omega), if_neg (by omega)]
  · rw [channel_odd, if_neg (by omega), channel_odd, hb, hb, h5, h5, baseIndex_even]
    by_cases hg : g' = g
    · subst hg
      rw [oddValue_toNat, oddValue_toNat]
      simp [evenShared_toNat]
      omega
    · rw [if_neg (by omega), if_neg (by omega), if_neg (by omega), if_neg (by omega)]
  · rw [channel_even, if_neg (by omega), channel_even, hb, hb, h5, h5, baseIndex_odd]
    by_cases hg : g' = g
    · subst hg
      rw [evenValue_toNat, evenValue_toNat]
      simp [oddShared_toNat, show ¬3 * g' = 3 * g' + 1 + 1 by omega]
    · rw [if_neg (by omega), if_neg (by omega), if_neg (by omega), if_neg (by omega)]
  · by_cases hg : g' = g
    · subst hg
      rw [channel_odd, oddValue_toNat, hb, hb, h5, h5, baseIndex_odd]
      simp [oddByte_toNat, oddShared_toNat]
      omega
    · rw [channel_odd, if_neg (by omega), channel_odd, hb, hb, h5, h5, baseIndex_odd]
      rw [if_neg (by omega), if_neg (by omega), if_neg (by omega), if_neg (by omega)]

end Sys2Proof.Machine
end

