-- ==== Sys2Proof/Laws/Encoding.lean ====
section
/-! SUPPORT. The small lemmas of the command word: its fields and its number (30_encoding.md R54). -/

namespace Sys2Proof

/-- The command word as a number. -/
theorem commandWord_toNat (op : BitVec 3) (a d : Half) :
    (commandWord op a d).toNat = op.toNat * 2 ^ 32 + a.toNat * 2 ^ 16 + d.toNat := by
  have ha := a.isLt
  have hd := d.isLt
  have inner : (a ++ d : BitVec (16 + 16)).toNat = a.toNat * 2 ^ 16 + d.toNat := by
    rw [BitVec.toNat_append, ← Nat.shiftLeft_add_eq_or_of_lt hd, Nat.shiftLeft_eq]
  have outer : (op ++ (a ++ d : BitVec (16 + 16)) : BitVec (3 + (16 + 16))).toNat =
      op.toNat * 2 ^ 32 + (a ++ d : BitVec (16 + 16)).toNat := by
    rw [BitVec.toNat_append, ← Nat.shiftLeft_add_eq_or_of_lt (by omega), Nat.shiftLeft_eq]
  exact outer.trans (by rw [inner]; omega)

theorem opField_toNat (w : CommandWord) : (opField w).toNat = w.toNat / 2 ^ 32 := by
  have := w.isLt
  simp only [opField, BitVec.extractLsb'_toNat, Nat.shiftRight_eq_div_pow]
  omega

theorem aField_toNat (w : CommandWord) : (aField w).toNat = w.toNat / 2 ^ 16 % 2 ^ 16 := by
  simp only [aField, BitVec.extractLsb'_toNat, Nat.shiftRight_eq_div_pow]

theorem dField_toNat (w : CommandWord) : (dField w).toNat = w.toNat % 2 ^ 16 := by
  simp only [dField, BitVec.extractLsb'_toNat, Nat.shiftRight_zero]

/-- The fields of a word put together are the word's fields. -/
theorem opField_commandWord (op : BitVec 3) (a d : Half) : opField (commandWord op a d) = op := by
  apply BitVec.eq_of_toNat_eq
  rw [opField_toNat, commandWord_toNat]
  omega

theorem aField_commandWord (op : BitVec 3) (a d : Half) : aField (commandWord op a d) = a := by
  apply BitVec.eq_of_toNat_eq
  rw [aField_toNat, commandWord_toNat]
  omega

theorem dField_commandWord (op : BitVec 3) (a d : Half) : dField (commandWord op a d) = d := by
  apply BitVec.eq_of_toNat_eq
  rw [dField_toNat, commandWord_toNat]
  omega

/-- A word is its three fields put together. -/
theorem commandWord_fields (w : CommandWord) : commandWord (opField w) (aField w) (dField w) = w := by
  apply BitVec.eq_of_toNat_eq
  rw [commandWord_toNat, opField_toNat, aField_toNat, dField_toNat]
  omega

/-- Masking a word masks its fields. -/
theorem commandWord_and (op op' : BitVec 3) (a a' d d' : Half) :
    commandWord op a d &&& commandWord op' a' d' = commandWord (op &&& op') (a &&& a') (d &&& d') := by
  have outer : (op ++ (a ++ d : BitVec (16 + 16)) : BitVec (3 + (16 + 16))) &&& (op' ++ (a' ++ d' : BitVec (16 + 16))) =
      (op &&& op') ++ ((a &&& a') ++ (d &&& d') : BitVec (16 + 16)) := by
    rw [BitVec.and_append, BitVec.and_append]
  exact outer

end Sys2Proof
end

