-- ==== Sys2Proof/Laws/PerInstr.lean ====
section
/-! SUPPORT. The families of statements made for each command: `OpcodeField`, that the word of a command carries the
command's own opcode number in its field `op`, and zeros in the fields that its row ignores (30_encoding.md R54 to
R57). -/

namespace Sys2Proof.Laws

/-- The word of `i` holds the opcode of `i` and sets no bit that its row ignores. -/
def OpcodeField.Statement (i : Instr) : Prop := opField (encode i) = opcode i ∧ encode i &&& usedBits i = encode i

theorem OpcodeField.fields (op : BitVec 3) (a d a' d' : Half) (ha : a &&& a' = a) (hd : d &&& d' = d) :
    opField (commandWord op a d) = op ∧ commandWord op a d &&& commandWord 7 a' d' = commandWord op a d := by
  have h7 : op &&& 7 = op := by revert op; decide
  exact ⟨opField_commandWord op a d, by rw [commandWord_and, ha, hd, h7]⟩

theorem OpcodeField.all_ones (x : Half) : x &&& 0xFFFF = x := BitVec.and_allOnes

theorem OpcodeField.init (count : Half) : OpcodeField.Statement (.init count) :=
  OpcodeField.fields _ _ _ _ _ rfl (OpcodeField.all_ones count)

theorem OpcodeField.teardown : OpcodeField.Statement .teardown := OpcodeField.fields _ _ _ _ _ rfl rfl

theorem OpcodeField.set (c v : Half) : OpcodeField.Statement (.set c v) :=
  OpcodeField.fields _ _ _ _ _ (OpcodeField.all_ones c) (OpcodeField.all_ones v)

theorem OpcodeField.get (c : Half) : OpcodeField.Statement (.get c) :=
  OpcodeField.fields _ _ _ _ _ (OpcodeField.all_ones c) rfl

theorem OpcodeField.flush : OpcodeField.Statement .flush := OpcodeField.fields _ _ _ _ _ rfl rfl

theorem OpcodeField.enableOutputs : OpcodeField.Statement .enableOutputs := OpcodeField.fields _ _ _ _ _ rfl rfl

theorem OpcodeField.disableOutputs : OpcodeField.Statement .disableOutputs := OpcodeField.fields _ _ _ _ _ rfl rfl

theorem OpcodeField.reserved : OpcodeField.Statement .reserved := OpcodeField.fields _ _ _ _ _ rfl rfl

end Sys2Proof.Laws
end

