-- ==== Sys2Proof/Tests/Slice0.lean ====
section
/-! SUPPORT. Tests: words written out from the encodings, worked examples of 95_test_vectors.md, and for every statement
with hypotheses a state that meets them. -/

namespace Sys2Proof.Tests

open Sys2Proof.Machine

-- WellFormed: its one check

/-- 30_encoding.md R58: the reserved opcode is no command. -/
theorem test_reserved_is_ill_formed : Instr.WellFormed .reserved = false := by decide

theorem test_flush_is_well_formed : Instr.WellFormed .flush = true := by decide

-- Decode: words of 95_test_vectors.md (V1, V5, V8), one for every constructor

theorem test_decode_init : decode 0x000000004 = .init 4 := by decide
theorem test_decode_init_ignores_a : decode 0x0FFFF0001 = .init 1 := by decide
theorem test_decode_teardown : decode 0x100000000 = .teardown := by decide
theorem test_decode_set : decode 0x2001605A5 = .set 22 0x5A5 := by decide
theorem test_decode_get : decode 0x30001BEEF = .get 1 := by decide
theorem test_decode_flush : decode 0x4ABCD1234 = .flush := by decide
theorem test_decode_enableOutputs : decode 0x5FFFFFFFF = .enableOutputs := by decide
theorem test_decode_disableOutputs : decode 0x600000000 = .disableOutputs := by decide
theorem test_decode_reserved : decode 0x700000000 = .reserved := by decide
theorem test_encode_set : encode (.set 22 0x5A5) = 0x2001605A5 := by decide

-- One step: 95_test_vectors.md, D = 1

/-- A ready block of one device with these bytes, this BLANK and these replies of the transmitter. -/
def one (buf : Memory) (replies : List TxReply) : State :=
  { State.reset with mode := .ready, devices := 1, buf := buf, blank := .low, replies := replies }

/-- The state after a command, or the state given where it stops. -/
def after (i : Instr) (s : State) : State :=
  match exec i s with
  | .next t => t
  | .fault _ => s
  | .refused _ => s

/-- The response words a command adds, as numbers. -/
def answers (i : Instr) (s : State) : List Nat := (after i s).responses.map (fun r => (responseWord r).toNat)

/-- V1 row 7: the clamp, and channel 22's nibble kept. -/
theorem test_set_odd : (after (.set 23 0x1000) (one [(33, 0xA5), (34, 0xA5), (35, 0xA5)] [])).buf =
    [(33, 0xA5), (34, 0xF5), (35, 0xFF)] := by decide

/-- V2 row 2: channel 5's nibble kept. -/
theorem test_set_even : (after (.set 4 0xCBA) (one [(6, 0x33), (7, 0x43), (8, 0x44)] [])).buf =
    [(6, 0xBA), (7, 0x4C), (8, 0x44)] := by decide

/-- P1 row 5. -/
theorem test_get_odd : answers (.get 1) (one [(0, 0xBC), (1, 0x3A), (2, 0x12)] []) = [0x00123] := by decide

/-- V1 row 14. -/
theorem test_get_invalid : answers (.get 24) (one [(0, 0xBC)] []) = [0x1FFFF] := by decide

/-- V5 row 2, D_MAX = 4. -/
theorem test_init_at_capacity : (match initWithCapacity 4 4 State.reset with
    | .next t => decide (t.mode = .ready ∧ t.bufSize = 144 ∧ t.blank = .low ∧ t.trace = [.pin .blank .low])
    | _ => false) = true := by decide

/-- V5 row 3, D_MAX = 4. -/
theorem test_init_beyond_capacity : (match initWithCapacity 4 5 State.reset with
    | .next t => decide (t.mode = .uninitialized ∧ t.blank = .high ∧ t.responses = [⟨.resourceExhausted, 0⟩])
    | _ => false) = true := by decide

/-- V8: TEARDOWN keeps BLANK and emits nothing. -/
theorem test_teardown : (after .teardown (one [(0, 1)] [])).mode = .uninitialized ∧
    (after .teardown (one [(0, 1)] [])).blank = .low ∧ (after .teardown (one [(0, 1)] [])).trace = [] := by decide

/-- P3 step 4: the third byte fails. -/
theorem test_flush_fails : (after .flush (one [(0, 1), (34, 0xF0), (35, 0xFF)] [.answer .ok, .answer .ok, .answer .fail])).trace =
    [.pin .latch .low, .tx 0xFF .ok, .tx 0xF0 .ok, .tx 0x00 .fail] := by decide

/-- P1 step 7: the last five events of a FLUSH of `BC 3A 12`. -/
theorem test_flush_succeeds :
    (after .flush (one [(0, 0xBC), (1, 0x3A), (2, 0x12)] (List.replicate 36 (.answer .ok)))).trace.drop 34 =
    [.tx 0x12 .ok, .tx 0x3A .ok, .tx 0xBC .ok, .pin .latch .high, .pin .latch .low] := by decide

/-- 70_reset_and_hazards.md R126: reset in the pulse finds LATCH high, and returns it to low. -/
theorem test_reset_in_pulse :
    (after .flush { one [(0, 1)] (List.replicate 36 (.answer .ok)) with host := [.resetInPulse] }).latch = .high ∧
    (after .flush { one [(0, 1)] (List.replicate 36 (.answer .ok)) with host := [.resetInPulse] }).responses = [] := by decide

/-- 93_implementation_defined.md U9: what a byte answered `fail` puts on the wire is the argument's. -/
theorem test_wire_of_a_failed_byte :
    wireBits true (fun _ => [true]) [.pin .latch .low, .tx 0x80 .ok, .tx 0xFF .fail] =
    [true, false, false, false, false, false, false, false, true] := by decide

/-- V8 row 1: the same level is still an event. -/
theorem test_enableOutputs : (after .enableOutputs (one [] [])).blank = .low ∧
    (after .enableOutputs (one [] [])).trace = [.pin .blank .low] := by decide

/-- V8 row 2. -/
theorem test_disableOutputs : (after .disableOutputs (one [] [])).blank = .high ∧
    (after .disableOutputs (one [] [])).trace = [.pin .blank .high] := by decide

-- Witnesses: a state that meets the hypotheses of each statement

theorem dMax_pos : 1 ≤ Config.dMax := by unfold Config.dMax; omega

theorem dMax_le : Config.dMax ≤ 2730 := by unfold Config.dMax; omega

/-- A device count that is exactly `D_MAX`, and the first one beyond it. -/
theorem dMax_toNat : (BitVec.ofNat 16 Config.dMax).toNat = Config.dMax ∧
    (BitVec.ofNat 16 (Config.dMax + 1)).toNat = Config.dMax + 1 := by
  have := dMax_le
  constructor <;> simp only [BitVec.toNat_ofNat] <;> omega

/-- A FLUSH of one device that waits at byte 3. -/
def waiting (replies : List TxReply) : State := { one [(3, 9)] replies with flight := some (.wait 3) }

/-- A ready block to which the host presents this word. -/
def presented (w : CommandWord) : State := { one [(0, 1)] [] with host := [.command w] }

theorem one_inv : (one [(0, 1)] []).Inv :=
  ⟨fun _ => ⟨by decide, dMax_pos⟩, by decide, by decide, rfl⟩

theorem witness_CommandSelectedByOpcodeBits :
    (0x0FFFF0001 : CommandWord) &&& 0x700000000 = 0x000000000 ∧ (0x100000000 : CommandWord) &&& 0x700000000 = 0x100000000 ∧
    (0x2FFFFFFFF : CommandWord) &&& 0x700000000 = 0x200000000 ∧ (0x300000000 : CommandWord) &&& 0x700000000 = 0x300000000 ∧
    (0x4ABCD1234 : CommandWord) &&& 0x700000000 = 0x400000000 ∧ (0x5FFFFFFFF : CommandWord) &&& 0x700000000 = 0x500000000 ∧
    (0x600000000 : CommandWord) &&& 0x700000000 = 0x600000000 ∧ (0x7FFFFFFFF : CommandWord) &&& 0x700000000 = 0x700000000 := by
  decide

theorem witness_IgnoredFieldsHaveNoEffect :
    opField 0x30001BEEF = opField 0x300010000 ∧ aField 0x30001BEEF = aField 0x300010000 ∧
    ¬(opField 0x30001BEEF = 0 ∨ opField 0x30001BEEF = 2) ∧ (one [] []).flight = none ∧
    opField 0x0FFFF0001 = opField 0x000000001 ∧ dField 0x0FFFF0001 = dField 0x000000001 ∧
    ¬(opField 0x0FFFF0001 = 2 ∨ opField 0x0FFFF0001 = 3) := by decide

theorem witness_StepRunsDecodedCommand :
    (presented 0x200000ABC).flight = none ∧ (presented 0x200000ABC).host = .command 0x200000ABC :: [] := by decide

theorem noReset_nil {s : State} (h : s.host = []) : s.noReset := resetDue_nil h

theorem noReset_command {s : State} {w : CommandWord} {l : List HostInput} (h : s.host = .command w :: l) :
    s.noReset := resetDue_command h

/-- Both clauses: the FLUSH goes on waiting, and it ends. -/
theorem witness_BusyBlockAcceptsNoCommand :
    (∃ t, (waiting [.notYet]).flight ≠ none ∧ (waiting [.notYet]).noReset ∧ step (waiting [.notYet]) = .next t ∧
      t.flight ≠ none) ∧
    ∃ t, (waiting [.answer .fail]).flight ≠ none ∧ (waiting [.answer .fail]).noReset ∧
      step (waiting [.answer .fail]) = .next t ∧ t.flight = none :=
  ⟨⟨_, by decide, noReset_nil rfl, rfl, by decide⟩, ⟨_, by decide, noReset_nil rfl, rfl, by decide⟩⟩

theorem witness_IdleBlockStays : (one [] []).flight = none ∧ (one [] []).host = [] := by decide

/-- Also with a FLUSH in flight; and in the pulse, and with no FLUSH left for it. -/
theorem witness_ResetLeavesStatedValues : ({ waiting [] with host := [.reset] } : State).host = .reset :: [] ∧
    ({ waiting [] with host := [.reset] } : State).flight ≠ none ∧
    ({ one [] [] with host := [.resetInPulse], flight := some .pulse } : State).flight = some .pulse ∧
    ({ one [] [] with host := [.resetInPulse] } : State).flight = none := by decide

/-- One device, and exactly `D_MAX` devices. -/
theorem witness_InitCreatesZeroedHandle :
    State.reset.mode = .uninitialized ∧ (1 ≤ (1 : Half).toNat ∧ (1 : Half).toNat ≤ Config.dMax) ∧
    1 ≤ (BitVec.ofNat 16 Config.dMax).toNat ∧ (BitVec.ofNat 16 Config.dMax).toNat ≤ Config.dMax := by
  have h := dMax_toNat.1
  have := dMax_pos
  exact ⟨rfl, ⟨by decide, dMax_pos⟩, by omega, by omega⟩

/-- One device too many, and the largest operand; one device fits. -/
theorem witness_InitBeyondCapacityLeavesState :
    State.reset.mode = .uninitialized ∧ Config.dMax < (BitVec.ofNat 16 (Config.dMax + 1)).toNat ∧
    Config.dMax < (0xFFFF : Half).toNat ∧ 1 ≤ (1 : Half).toNat ∧ (1 : Half).toNat ≤ Config.dMax := by
  have h := dMax_toNat.2
  have := dMax_le
  exact ⟨rfl, by omega, by simp; omega, by decide, dMax_pos⟩

theorem witness_InitOfZeroDevicesIsRefused : State.reset.mode = .uninitialized := rfl

theorem witness_TeardownReleasesBuffer : (one [(0, 1)] []).mode = .ready := rfl

theorem witness_ReinitialisationStartsAfresh :
    (one [(0, 1)] []).mode = .ready ∧ 1 ≤ (1 : Half).toNat ∧ (1 : Half).toNat ≤ Config.dMax :=
  ⟨rfl, by decide, dMax_pos⟩

theorem witness_CommandsOutsideTheirStateAreRefused :
    State.reset.mode = .uninitialized ∧ isDataCommand (.set 0 0) = true ∧ (one [] []).mode = .ready := by decide

theorem witness_ReservedOpcodeIsRefused : (presented 0x7FFFFFFFF).flight = none ∧
    (presented 0x7FFFFFFFF).host = .command 0x7FFFFFFFF :: [] ∧ opField 0x7FFFFFFFF = 7 := by decide

/-- The last even and the last odd channel, and the first invalid one. -/
theorem witness_SetWritesItsByteAndNibble : (one [] []).mode = .ready ∧
    ((22 : Half).toNat < 24 * (one [] []).devices.toNat ∧ (22 : Half).toNat % 2 = 0) ∧
    ((23 : Half).toNat < 24 * (one [] []).devices.toNat ∧ (23 : Half).toNat % 2 = 1) ∧
    ¬(24 : Half).toNat < 24 * (one [] []).devices.toNat := by decide

/-- Channel 22 with its neighbours, channel 23 with its neighbour. -/
theorem witness_SetDisturbsNoOtherChannel : (one [] []).mode = .ready ∧
    (22 : Half).toNat < 24 * (one [] []).devices.toNat ∧ (23 : Half).toNat < 24 * (one [] []).devices.toNat ∧
    (23 : Half) ≠ 22 ∧ (22 : Half).toNat % 2 = 0 ∧ (23 : Half).toNat % 2 = 1 := by decide

theorem witness_SetClampsLargeValues : 4095 < (4096 : Half).toNat ∧ 4095 < (0xFFFF : Half).toNat := by decide

theorem witness_GetAssemblesItsByteAndNibble : (one [(0, 1)] []).mode = .ready ∧
    ((22 : Half).toNat < 24 * (one [(0, 1)] []).devices.toNat ∧ (22 : Half).toNat % 2 = 0) ∧
    ((23 : Half).toNat < 24 * (one [(0, 1)] []).devices.toNat ∧ (23 : Half).toNat % 2 = 1) ∧
    ¬(24 : Half).toNat < 24 * (one [(0, 1)] []).devices.toNat := by decide

theorem witness_GetAfterSetReturnsTheValue : (one [] []).mode = .ready ∧
    (0 : Half).toNat < 24 * (one [] []).devices.toNat ∧ (23 : Half).toNat < 24 * (one [] []).devices.toNat := by decide

/-- The last valid and the first invalid channel. -/
theorem witness_SentinelOnlyForInvalidChannels :
    (∃ t, exec (.get 23) (one [] []) = .next t ∧ (23 : Half).toNat < 24 * (one [] []).devices.toNat) ∧
    ∃ t, exec (.get 24) (one [] []) = .next t ∧ 24 * (one [] []).devices.toNat ≤ (24 : Half).toNat :=
  ⟨⟨_, rfl, by decide⟩, ⟨_, rfl, by decide⟩⟩

/-- The first and the last group. -/
theorem witness_SetPairFillsItsGroup : (one [] []).mode = .ready ∧ 0 < 12 * (one [] []).devices.toNat ∧
    11 < 12 * (one [] []).devices.toNat ∧ 2 * 11 + 1 < 65536 := by decide

/-- Two states with the same channel values and different histories; the second clause needs the first state alone. -/
theorem witness_BufferIsItsChannelValues :
    (one [(0, 1)] []).Inv ∧ ({ one [(0, 1)] [] with blank := .high } : State).Inv ∧ (one [(0, 1)] []).mode = .ready ∧
    ({ one [(0, 1)] [] with blank := .high } : State).mode = .ready ∧
    (one [(0, 1)] []).devices = ({ one [(0, 1)] [] with blank := .high } : State).devices ∧
    ∀ c, (one [(0, 1)] []).channel c = ({ one [(0, 1)] [] with blank := .high } : State).channel c :=
  ⟨one_inv, one_inv, rfl, rfl, rfl, fun _ => rfl⟩

theorem witness_ChannelAddressesStayInTheirDevice :
    (23 : Half).toNat < 24 * (1 : Half).toNat ∧ (24 : Half).toNat < 24 * (2 : Half).toNat := by decide

/-- Two FLUSH commands' worth of answers: of both, the second is the rest after the first. -/
theorem witness_FlushSendsBufferThenPulses :
    (one [(0, 1)] (List.replicate 36 (.answer .ok) ++ [.notYet])).mode = .ready ∧
    (one [(0, 1)] (List.replicate 36 (.answer .ok) ++ [.notYet])).cutsPulse = false ∧
    (one [(0, 1)] (List.replicate 36 (.answer .ok) ++ [.notYet])).replies =
      List.replicate (36 * (1 : Half).toNat) (.answer .ok) ++ [.notYet] := by decide

/-- The first byte sent fails, and the last one. -/
theorem witness_FlushAbortsAtFailedByte :
    (one [] [.answer .fail]).mode = .ready ∧ 35 < 36 * (one [] [.answer .fail]).devices.toNat ∧
    (one [] [.answer .fail]).replies = List.replicate (36 * (1 : Half).toNat - 1 - 35) (.answer .ok) ++ .answer .fail :: [] ∧
    (one [] (List.replicate 35 (.answer .ok) ++ [.answer .fail])).replies =
      List.replicate (36 * (1 : Half).toNat - 1 - 0) (.answer .ok) ++ .answer .fail :: [] := by decide

/-- The first byte sent is not answered, and the last one. -/
theorem witness_FlushWaitsAtUnansweredByte :
    (one [] [.notYet]).mode = .ready ∧ 35 < 36 * (one [] [.notYet]).devices.toNat ∧
    (one [] [.notYet]).replies = List.replicate (36 * (1 : Half).toNat - 1 - 35) (.answer .ok) ++ .notYet :: [] ∧
    (one [] (List.replicate 35 (.answer .ok) ++ [.notYet])).replies =
      List.replicate (36 * (1 : Half).toNat - 1 - 0) (.answer .ok) ++ .notYet :: [] := by decide

theorem witness_FlushAnswersOrWaits : (one [(0, 1)] [.notYet]).mode = .ready := rfl

theorem witness_SilentTransmitterHangsFlush : (waiting [.notYet, .notYet, .answer .ok]).noReset ∧
    (waiting [.notYet, .notYet, .answer .ok]).flight = some (.wait 3) ∧
    3 < (waiting [.notYet, .notYet, .answer .ok]).bufSize ∧
    (waiting [.notYet, .notYet, .answer .ok]).replies = List.replicate 2 .notYet ++ [.answer .ok] :=
  ⟨noReset_nil rfl, rfl, by decide, rfl⟩

/-- The first byte sent is answered late, and the last one. -/
theorem witness_LateAnswerDoesNotChangeFlush :
    (one [] [.notYet, .answer .fail]).mode = .ready ∧ (∀ later, (one [] [.notYet, .answer .fail]).host ≠ .reset :: later) ∧
    (0 < 36 * (1 : Half).toNat ∧ (one [] [.notYet, .answer .fail]).replies =
      List.replicate 0 (.answer .ok) ++ .notYet :: [.answer .fail]) ∧
    35 < 36 * (1 : Half).toNat ∧ (one [] (List.replicate 35 (.answer .ok) ++ [.notYet, .answer .ok])).replies =
      List.replicate 35 (.answer .ok) ++ .notYet :: [.answer .ok] :=
  ⟨rfl, fun _ => by simp [one, State.reset], by decide, by decide, rfl⟩

theorem witness_SmallStepFormAgreesWithFlush : (one [(0, 1)] [.answer .fail]).mode = .ready ∧
    1 ≤ (one [(0, 1)] [.answer .fail]).devices.toNat ∧
    (after .flush (one [(0, 1)] [.answer .fail])).flight = none := by decide

/-- Two FLUSH commands that succeed, and two that fail at byte 35. -/
theorem witness_FlushTwiceEmitsTheSameEvents :
    ((one [(0, 1)] (List.replicate 36 (.answer .ok) ++ (List.replicate 36 (.answer .ok) ++ []))).mode = .ready ∧
      (one [(0, 1)] []).latch = .low ∧ (one [(0, 1)] []).flight = none ∧ (one [(0, 1)] []).cutsPulse = false) ∧
    35 < 36 * (1 : Half).toNat ∧
    (one [(0, 1)] [.answer .fail, .answer .fail]).replies =
      (List.replicate (36 * (1 : Half).toNat - 1 - 35) (.answer .ok) ++ [.answer .fail]) ++
        ((List.replicate (36 * (1 : Half).toNat - 1 - 35) (.answer .ok) ++ [.answer .fail]) ++ []) := by decide

theorem witness_WireCarriesChannelsMsbFirst :
    (one [(0, 1)] (List.replicate 36 (.answer .ok))).mode = .ready ∧
    (one [(0, 1)] (List.replicate 36 (.answer .ok))).replies =
      List.replicate (36 * (1 : Half).toNat) (.answer .ok) ++ [] := by decide

theorem witness_ResetInPulseReturnsLatchLow :
    ({ one [(0, 1)] (List.replicate 36 (.answer .ok)) with host := [.resetInPulse] } : State).mode = .ready ∧
    ({ one [(0, 1)] (List.replicate 36 (.answer .ok)) with host := [.resetInPulse] } : State).replies =
      List.replicate (36 * (1 : Half).toNat) (.answer .ok) ++ [] := by decide

theorem witness_EnableOutputsDrivesBlankLow : (one [] []).mode = .ready := rfl

theorem witness_DisableOutputsDrivesBlankHigh : (one [] []).mode = .ready := rfl

theorem witness_BlankDoesNotTouchTheDataPath : ∃ c v t, Instr.set 0 1 = .set c v ∧ exec (.set 0 1) (one [] []) = .next t :=
  ⟨0, 1, _, rfl, rfl⟩

/-- A ready state that executes SET, and a FLUSH in flight. -/
theorem witness_StepKeepsTheInvariant :
    ((one [(0, 1)] []).Inv ∧ ∃ t, step (one [(0, 1)] []) = .next t) ∧
    (presented 0x200000ABC).Inv ∧ (∃ t, step (presented 0x200000ABC) = .next t ∧ t.buf ≠ (presented 0x200000ABC).buf) :=
  ⟨⟨one_inv, _, rfl⟩, ⟨fun _ => ⟨by decide, dMax_pos⟩, by decide, by decide, rfl⟩, _, rfl, by decide⟩

theorem witness_BlockNeverFaults : (one [(0, 1)] []).Inv := one_inv

/-- A command that returns each of the three errors, and one that returns none. -/
theorem witness_ErrorsExactlyForTheirCauses :
    (∃ t, exec (.set 24 0) (one [] []) = .next t ∧ t.responses = [⟨.invalidArgument, 0⟩]) ∧
    (∃ t, exec (.get 24) (one [] []) = .next t ∧ t.responses = [⟨.invalidArgument, 0xFFFF⟩]) ∧
    (∃ t, exec .flush (one [] [.answer .fail]) = .next t ∧ t.responses = [⟨.transportError, 0⟩]) ∧
    (∃ t, exec (.init 0xFFFF) State.reset = .next t ∧ t.responses = [⟨.resourceExhausted, 0⟩]) ∧
    ∃ t, exec (.set 23 0) (one [] []) = .next t ∧ t.responses = [⟨.ok, 0⟩] := by
  refine ⟨⟨_, rfl, rfl⟩, ⟨_, rfl, rfl⟩, ⟨_, rfl, rfl⟩, ⟨State.reset.raiseError .resourceExhausted 0, ?_, rfl⟩, ⟨_, rfl, rfl⟩⟩
  have h : Config.dMax < (0xFFFF : Half).toNat := by have := dMax_le; simp; omega
  show initWithCapacity Config.dMax 0xFFFF State.reset = _
  simp only [initWithCapacity, State.reset, h, if_true]
  rfl

/-- GET returns data, SET returns none. -/
theorem witness_OnlyGetReturnsData :
    (∃ t, (presented 0x300000000).noReset ∧ step (presented 0x300000000) = .next t ∧ t.responses = [⟨.ok, 1⟩]) ∧
    ∃ t, (presented 0x200000001).noReset ∧ step (presented 0x200000001) = .next t ∧ t.responses = [⟨.ok, 0⟩] :=
  ⟨⟨_, noReset_command rfl, rfl, rfl⟩, ⟨_, noReset_command rfl, rfl, rfl⟩⟩

/-- A command that answers, a FLUSH left waiting, and one that a reset cuts in its pulse. -/
theorem witness_EveryCommandReturnsOneResponse :
    (∃ t, exec (.get 0) (one [] []) = .next t) ∧
    (∃ t, exec .flush (one [] [.notYet]) = .next t ∧ t.flight = some (.wait 35)) ∧
    ∃ t, exec .flush { one [] (List.replicate 36 (.answer .ok)) with host := [.resetInPulse] } = .next t ∧
      t.flight = some .pulse :=
  ⟨⟨_, rfl⟩, ⟨_, rfl, rfl⟩, ⟨_, rfl, rfl⟩⟩

/-- TEARDOWN, and an INIT of one device. -/
theorem witness_OnlyInitAndTeardownChangeMode :
    (∃ t, (presented 0x100000000).noReset ∧ step (presented 0x100000000) = .next t ∧
      t.mode ≠ (presented 0x100000000).mode) ∧
    ∃ t, (State.reset.withFetchWord 35 1).noReset ∧ step (State.reset.withFetchWord 35 1) = .next t ∧
      t.mode ≠ (State.reset.withFetchWord 35 1).mode := by
  refine ⟨⟨_, noReset_command rfl, rfl, by decide⟩, createHandle 1 State.reset, noReset_command rfl, ?_, by decide⟩
  have h : ¬Config.dMax < (1 : Half).toNat := by have := dMax_pos; simp; omega
  show initWithCapacity Config.dMax 1 State.reset = _
  simp only [initWithCapacity, State.reset, h, if_false]
  rfl

theorem witness_ReadyKeepsDevicesAndOnlySetWritesBuffer :
    ∃ t, (presented 0x200000ABC).noReset ∧ step (presented 0x200000ABC) = .next t ∧
      (presented 0x200000ABC).mode = .ready ∧ t.mode = .ready ∧ t.buf ≠ (presented 0x200000ABC).buf :=
  ⟨_, noReset_command rfl, rfl, rfl, rfl, by decide⟩

/-- BLANK changed by DISABLE_OUTPUTS, and LATCH by the end of a pulse. -/
theorem witness_PinsChangeOnlyByTheirCommands :
    (∃ t, (presented 0x600000000).noReset ∧ step (presented 0x600000000) = .next t ∧
      t.blank ≠ (presented 0x600000000).blank) ∧
    ∃ t, ({ one [] [] with latch := .high, flight := some .pulse } : State).noReset ∧
      step { one [] [] with latch := .high, flight := some .pulse } = .next t ∧ t.latch ≠ .high :=
  ⟨⟨_, noReset_command rfl, rfl, by decide⟩, ⟨_, noReset_nil rfl, rfl, by decide⟩⟩

/-- A pin command, a SET, a TEARDOWN and a FLUSH that fails at its first byte. -/
theorem witness_EventCountsOfCommands :
    (∃ t, exec .enableOutputs (one [] []) = .next t) ∧ (∃ t, exec (.set 0 1) (one [] []) = .next t) ∧
    (∃ t, exec .teardown (one [] []) = .next t) ∧
    ∃ t, exec .flush (one [] [.answer .fail]) = .next t ∧ t.responses = [⟨.transportError, 0⟩] :=
  ⟨⟨_, rfl⟩, ⟨_, rfl⟩, ⟨_, rfl⟩, ⟨_, rfl, rfl⟩⟩

end Sys2Proof.Tests
end

section
/-! PROOFS. 00_scope.md R10 and R11: what a step does with no FLUSH in flight and with one. -/

namespace Sys2Proof.Machine

-- The step, one equation per case

/-- With a word at the host's port and no FLUSH in flight, the step runs the word's command on the state without it. -/
theorem step_command {s : State} {w : CommandWord} {later : List HostInput} (hf : s.flight = none)
    (hh : s.host = .command w :: later) : step s = exec (decode w) (s.setHost later) := by
  simp [step, resetDue_command hh, hf, hh]

/-- With a FLUSH in flight and no reset due, the step goes on with the FLUSH, whatever the host presents. -/
theorem step_inFlight {s : State} {f : Flight} (hf : s.flight = some f) (hr : s.noReset) :
    step s = toOutcome (resumeFlight f s) := by
  have hdue : s.resetDue = none := hr
  simp [step, hdue, hf]

-- What a FLUSH leaves alone, and the two ways a step of it can leave the block

/-- What no part of a FLUSH writes: the host's inputs, so that no command is taken (00_scope.md R11), and the state that
only other commands change. -/
structure SameButFlush (s t : State) : Prop where
  host : t.host = s.host
  mode : t.mode = s.mode
  devices : t.devices = s.devices
  buf : t.buf = s.buf
  blank : t.blank = s.blank

/-- The FLUSH is still in flight and has answered nothing, or it is over and has answered once. -/
def InFlightOrAnswered (s t : State) : Prop :=
  (t.flight ≠ none ∧ t.responses = s.responses) ∨ (t.flight = none ∧ ∃ r, t.responses = s.responses ++ [r])

theorem sameButFlush_endPulse (s : State) : SameButFlush s (endPulse s) := by
  constructor <;> simp [endPulse]

theorem inFlightOrAnswered_endPulse (s : State) : InFlightOrAnswered s (endPulse s) :=
  .inr ⟨by simp [endPulse], ⟨.ok, 0⟩, by simp [endPulse]⟩

/-- Each of the four ways in which sending bytes can end is one of the two. -/
theorem SendEnd.inFlightOrAnswered {n k : Nat} {s t : State} (h : SendEnd n k s t) : InFlightOrAnswered s t := by
  rcases h with ⟨_, _, hresp, hfl, _⟩ | ⟨_, _, hresp, hfl, _⟩ | ⟨_, _, hresp, hfl, _⟩ | ⟨_, _, hresp, hfl, _⟩
  case inl => exact .inr ⟨hfl, _, hresp⟩
  case inr.inl => exact .inl ⟨by simp [hfl], hresp⟩
  case inr.inr.inl => exact .inr ⟨hfl, _, hresp⟩
  case inr.inr.inr => exact .inl ⟨by simp [hfl], hresp⟩

theorem sendBytes_sameButFlush {n : Nat} {s t : State} (h : sendBytes n s = .ok t) : SameButFlush s t := by
  obtain ⟨⟨hmode, hdev, hbuf, hblank, hhost⟩, _⟩ := sendBytes_cases h
  exact ⟨hhost, hmode, hdev, hbuf, hblank⟩

theorem sendBytes_inFlightOrAnswered {n : Nat} {s t : State} (h : sendBytes n s = .ok t) : InFlightOrAnswered s t := by
  obtain ⟨_, k, _, hend⟩ := sendBytes_cases h
  exact hend.inFlightOrAnswered

theorem resumeFlight_sameButFlush {f : Flight} {s t : State} (h : resumeFlight f s = .ok t) : SameButFlush s t := by
  rcases resumeFlight_cases h with ⟨_, rfl⟩ | ⟨i, _, hsend⟩
  · exact sameButFlush_endPulse s
  · exact sendBytes_sameButFlush hsend

theorem resumeFlight_inFlightOrAnswered {f : Flight} {s t : State} (h : resumeFlight f s = .ok t) :
    InFlightOrAnswered s t := by
  rcases resumeFlight_cases h with ⟨_, rfl⟩ | ⟨i, _, hsend⟩
  · exact inFlightOrAnswered_endPulse s
  · exact sendBytes_inFlightOrAnswered hsend

-- The statements

/-- Settles O7: the step's equation for a presented word. -/
theorem stepRunsDecodedCommand : Obligations.StepRunsDecodedCommand := by
  intro s w later hf hh
  exact step_command hf hh

/-- Settles O8: such a step is the FLUSH going on, and every way it goes on keeps the rest and answers at most once. -/
theorem busyBlockAcceptsNoCommand : Obligations.BusyBlockAcceptsNoCommand := by
  intro s t hbusy hr hstep
  obtain ⟨f, hf⟩ := Option.ne_none_iff_exists'.mp hbusy
  have hres : resumeFlight f s = .ok t := toOutcome_next ((step_inFlight hf hr).symm.trans hstep)
  obtain ⟨hhost, hmode, hdev, hbuf, hblank⟩ := resumeFlight_sameButFlush hres
  exact ⟨hhost, hmode, hdev, hbuf, hblank, resumeFlight_inFlightOrAnswered hres⟩

end Sys2Proof.Machine
end

section
/-! PROOFS. 10_state.md R15 to R31: everything a command and a step can do, the invariant that every step keeps, and which
commands change each piece of the state. -/

namespace Sys2Proof.Machine

-- Everything a command can do

/-- A valid channel's two bytes exist while the handle is ready (20_memory.md R41). -/
theorem validChannel_lt_bufSize {s : State} {c : Half} (hm : s.mode = .ready) (hc : validChannel s.devices c = true) :
    baseIndex c.toNat + 1 < s.bufSize := by
  rw [bufSize_ready hm]
  exact validChannel_in_buffer hc

/-- The ways in which a command can lead to a next state, with what the block tested before it. -/
inductive ExecEnd : Instr → State → State → Prop
  | create {s : State} {count : Half} (hm : s.mode = .uninitialized) (hpos : count ≠ 0)
      (hcap : count.toNat ≤ Config.dMax) : ExecEnd (.init count) s (createHandle count s)
  | noCapacity {s : State} {count : Half} (hm : s.mode = .uninitialized) (hcap : Config.dMax < count.toNat) :
      ExecEnd (.init count) s (s.raiseError .resourceExhausted 0)
  | release {s : State} (hm : s.mode = .ready) : ExecEnd .teardown s ((releaseHandle s).answerOk 0)
  | store {s : State} {c v : Half} {m : Memory} (hm : s.mode = .ready) (hc : validChannel s.devices c = true)
      (hstore : storeChannel s c.toNat (clamp v) = .ok (s.setBuf m)) : ExecEnd (.set c v) s ((s.setBuf m).answerOk 0)
  | storeInvalid {s : State} {c v : Half} (hm : s.mode = .ready) (hc : validChannel s.devices c = false) :
      ExecEnd (.set c v) s (s.raiseError .invalidArgument 0)
  | load {s : State} {c : Half} (hm : s.mode = .ready) (hc : validChannel s.devices c = true) :
      ExecEnd (.get c) s (s.answerOk (grayData (s.channel c.toNat)))
  | loadInvalid {s : State} {c : Half} (hm : s.mode = .ready) (hc : validChannel s.devices c = false) :
      ExecEnd (.get c) s (s.raiseError .invalidArgument Config.sentinel)
  | flush {s t : State} (hm : s.mode = .ready)
      (hsend : sendBytes (bufLength s.devices) (s.drivePin .latch .low) = .ok t) : ExecEnd .flush s t
  | enable {s : State} (hm : s.mode = .ready) : ExecEnd .enableOutputs s ((s.drivePin .blank .low).answerOk 0)
  | disable {s : State} (hm : s.mode = .ready) : ExecEnd .disableOutputs s ((s.drivePin .blank .high).answerOk 0)

theorem execInit_next {count : Half} {s t : State} (h : execInit count s = .next t) : ExecEnd (.init count) s t := by
  obtain ⟨hm, hpos, ⟨hcap, rfl⟩ | ⟨hcap, rfl⟩⟩ := initWithCapacity_next h
  · exact .create hm hpos hcap
  · exact .noCapacity hm hcap

theorem execTeardown_next {s t : State} (h : execTeardown s = .next t) : ExecEnd .teardown s t := by
  obtain ⟨hm, h⟩ := whenReady_next h
  cases h
  exact .release hm

theorem execSet_next {c v : Half} {s t : State} (h : execSet c v s = .next t) : ExecEnd (.set c v) s t := by
  obtain ⟨hm, h⟩ := whenReady_next h
  cases hc : validChannel s.devices c
  case false =>
    rw [hc] at h
    cases h
    exact .storeInvalid hm hc
  case true =>
    obtain ⟨m, hstore, _⟩ := storeChannel_spec (clamp v) (validChannel_lt_bufSize hm hc)
    rw [hc, hstore] at h
    cases h
    exact .store hm hc hstore

theorem execGet_next {c : Half} {s t : State} (h : execGet c s = .next t) : ExecEnd (.get c) s t := by
  obtain ⟨hm, h⟩ := whenReady_next h
  cases hc : validChannel s.devices c
  case false =>
    rw [hc] at h
    cases h
    exact .loadInvalid hm hc
  case true =>
    rw [hc, loadChannel_channel (validChannel_lt_bufSize hm hc)] at h
    cases h
    exact .load hm hc

theorem execFlush_next {s t : State} (h : execFlush s = .next t) : ExecEnd .flush s t := by
  obtain ⟨hm, h⟩ := whenReady_next h
  exact .flush hm (toOutcome_next h)

theorem execEnableOutputs_next {s t : State} (h : execEnableOutputs s = .next t) : ExecEnd .enableOutputs s t := by
  obtain ⟨hm, h⟩ := whenReady_next h
  cases h
  exact .enable hm

theorem execDisableOutputs_next {s t : State} (h : execDisableOutputs s = .next t) : ExecEnd .disableOutputs s t := by
  obtain ⟨hm, h⟩ := whenReady_next h
  cases h
  exact .disable hm

/-- A command that gives a next state does so in one of the ways of `ExecEnd`; the reserved opcode gives none. -/
theorem exec_next {i : Instr} {s t : State} (h : exec i s = .next t) : ExecEnd i s t := by
  cases i with
  | init count => exact execInit_next h
  | teardown => exact execTeardown_next h
  | set c v => exact execSet_next h
  | get c => exact execGet_next h
  | flush => exact execFlush_next h
  | enableOutputs => exact execEnableOutputs_next h
  | disableOutputs => exact execDisableOutputs_next h
  | reserved => cases h

-- Everything a step can do

/-- A reset that is due is taken before anything else (70_reset_and_hazards.md R125). -/
theorem step_reset {s : State} {later : List HostInput} (h : s.resetDue = some later) :
    step s = .next (hardwareReset later s) := by
  simp [step, h]

/-- The ways in which a step can lead to a next state. -/
inductive StepEnd (s : State) : State → Prop
  | reset {later : List HostInput} (hdue : s.resetDue = some later) : StepEnd s (hardwareReset later s)
  | resume {f : Flight} {t : State} (hf : s.flight = some f) (hres : resumeFlight f s = .ok t) : StepEnd s t
  | command {i : Instr} {later : List HostInput} {t : State} (hi : s.executes i) (hend : ExecEnd i (s.setHost later) t) :
      StepEnd s t
  | idle : StepEnd s s

theorem step_next {s t : State} (h : step s = .next t) : StepEnd s t := by
  cases hdue : s.resetDue with
  | some later =>
    rw [step_reset hdue] at h
    cases h
    exact .reset hdue
  | none =>
    cases hf : s.flight with
    | some f =>
      rw [step_inFlight hf hdue] at h
      exact .resume hf (toOutcome_next h)
    | none =>
      rcases hh : s.host with _ | ⟨w | _ | _, later⟩
      case cons.command =>
        rw [step_command hf hh] at h
        exact .command ⟨hf, w, later, hh, rfl⟩ (exec_next h)
      all_goals
        simp only [step, hdue, hf, hh, Host.Outcome.next.injEq] at h
        exact h ▸ .idle

-- What each command leaves alone (10_state.md R16 to R20)

/-- FLUSH as a command writes no more than a FLUSH in flight does. -/
theorem flush_sameButFlush {s t : State} {n : Nat} (h : sendBytes n (s.drivePin .latch .low) = .ok t) :
    SameButFlush s t := by
  obtain ⟨hhost, hmode, hdev, hbuf, hblank⟩ := sendBytes_sameButFlush h
  exact ⟨hhost, hmode, hdev, hbuf, hblank⟩

theorem ExecEnd.mode_change {i : Instr} {s t : State} (h : ExecEnd i s t) (hne : t.mode ≠ s.mode) :
    ((∃ count, i = .init count) ∧ t.mode = .ready ∧ t.responses = s.responses ++ [⟨.ok, 0⟩]) ∨
    (i = .teardown ∧ t.mode = .uninitialized) := by
  cases h with
  | create => exact .inl ⟨⟨_, rfl⟩, rfl, rfl⟩
  | release => exact .inr ⟨rfl, rfl⟩
  | flush _ hsend => exact absurd (flush_sameButFlush hsend).mode hne
  | _ => exact absurd rfl hne

theorem ExecEnd.devices_eq {i : Instr} {s t : State} (h : ExecEnd i s t) (hs : s.mode = .ready) (ht : t.mode = .ready) :
    t.devices = s.devices := by
  cases h with
  | create hm => simp [hs] at hm
  | release => simp at ht
  | flush _ hsend => exact (flush_sameButFlush hsend).devices
  | _ => rfl

theorem ExecEnd.buf_change {i : Instr} {s t : State} (h : ExecEnd i s t) (hs : s.mode = .ready) (ht : t.mode = .ready)
    (hne : t.buf ≠ s.buf) : ∃ c v, i = .set c v := by
  cases h with
  | create hm => simp [hs] at hm
  | release => simp at ht
  | store => exact ⟨_, _, rfl⟩
  | flush _ hsend => exact absurd (flush_sameButFlush hsend).buf hne
  | _ => exact absurd rfl hne

theorem ExecEnd.latch_change {i : Instr} {s t : State} (h : ExecEnd i s t) (hne : t.latch ≠ s.latch) : i = .flush := by
  cases h with
  | flush => rfl
  | _ => exact absurd rfl hne

theorem ExecEnd.blank_change {i : Instr} {s t : State} (h : ExecEnd i s t) (hne : t.blank ≠ s.blank) :
    i = .enableOutputs ∨ i = .disableOutputs ∨ ((∃ count, i = .init count) ∧ t.mode = .ready) := by
  cases h with
  | create => exact .inr (.inr ⟨⟨_, rfl⟩, rfl⟩)
  | flush _ hsend => exact absurd (flush_sameButFlush hsend).blank hne
  | enable => exact .inl rfl
  | disable => exact .inr (.inl rfl)
  | _ => exact absurd rfl hne

-- The invariant: LATCH and the FLUSH in flight (10_state.md R31, 41_chain_ops.md R90)

theorem flightInv_none {s : State} (h : s.flight = none) : s.FlightInv ↔ s.latch = .low := by
  simp [State.FlightInv, h]

theorem flightInv_send {s : State} {i : Nat} (h : s.flight = some (.send i)) :
    s.FlightInv ↔ s.mode = .ready ∧ i < bufLength s.devices ∧ s.latch = .low := by
  simp [State.FlightInv, h]

theorem flightInv_wait {s : State} {i : Nat} (h : s.flight = some (.wait i)) :
    s.FlightInv ↔ s.mode = .ready ∧ i < bufLength s.devices ∧ s.latch = .low := by
  simp [State.FlightInv, h]

theorem flightInv_pulse {s : State} (h : s.flight = some .pulse) :
    s.FlightInv ↔ s.mode = .ready ∧ s.latch = .high := by
  simp [State.FlightInv, h]

/-- With no FLUSH in flight, what LATCH must be is the same whatever becomes of the mode and the device count. -/
theorem State.FlightInv.of_idle_frame {s t : State} (hs : s.FlightInv) (hidle : s.flight = none)
    (hf : t.flight = s.flight) (hl : t.latch = s.latch) : t.FlightInv :=
  (flightInv_none (hf.trans hidle)).mpr (hl.trans ((flightInv_none hidle).mp hs))

/-- However the sending of existing bytes ends, LATCH agrees with what is in flight then: a FLUSH that waits does so at one
of the bytes it was to send. -/
theorem sendBytes_flightInv {n : Nat} {s t : State} (h : sendBytes n s = .ok t) (hm : s.mode = .ready)
    (hlow : s.latch = .low) (hn : n ≤ bufLength s.devices) : t.FlightInv := by
  obtain ⟨⟨hmode, hdev, _⟩, k, _, hend⟩ := sendBytes_cases h
  rcases hend with ⟨_, _, _, hf, hl, _⟩ | ⟨_, _, _, hf, hl, _⟩ | ⟨_, _, _, hf, hl⟩ | ⟨hk, _, _, hf, hl⟩
  case inl => exact (flightInv_none hf).mpr hl
  case inr.inl => exact (flightInv_pulse hf).mpr ⟨hmode.trans hm, hl⟩
  case inr.inr.inl => exact (flightInv_none hf).mpr (hl.trans hlow)
  case inr.inr.inr =>
    refine (flightInv_wait hf).mpr ⟨hmode.trans hm, ?_, hl.trans hlow⟩
    rw [hdev]
    omega

theorem resumeFlight_flightInv {f : Flight} {s t : State} (hs : s.FlightInv) (hf : s.flight = some f)
    (h : resumeFlight f s = .ok t) : t.FlightInv := by
  rcases resumeFlight_cases h with ⟨_, rfl⟩ | ⟨i, rfl | rfl, hsend⟩
  case inl => exact (flightInv_none (by simp [endPulse])).mpr (by simp [endPulse])
  case inr.inl =>
    obtain ⟨hm, hi, hlow⟩ := (flightInv_send hf).mp hs
    exact sendBytes_flightInv hsend hm hlow hi
  case inr.inr =>
    obtain ⟨hm, hi, hlow⟩ := (flightInv_wait hf).mp hs
    exact sendBytes_flightInv hsend hm hlow hi

-- The invariant: the device count and the buffer

/-- A state without a handle meets the invariant when LATCH agrees with the FLUSH in flight. -/
theorem inv_uninitialized {t : State} (hm : t.mode = .uninitialized) (hbuf : t.buf = []) (hf : t.FlightInv) : t.Inv := by
  refine ⟨?_, ?_, ?_, hf⟩
  · simp [hm]
  · rw [hbuf]; exact empty_wf
  · simp [hbuf]

/-- The invariant depends on no more than the mode, the device count, the buffer, and LATCH with the FLUSH in flight. -/
theorem State.Inv.of_frame {s t : State} (hs : s.Inv) (hmode : t.mode = s.mode) (hdev : t.devices = s.devices)
    (hbuf : t.buf = s.buf) (hf : t.FlightInv) : t.Inv := by
  obtain ⟨hcount, hwf, hcells, _⟩ := hs
  have hsize : t.bufSize = s.bufSize := by simp only [State.bufSize, hmode, hdev]
  refine ⟨?_, ?_, ?_, hf⟩
  · rwa [hmode, hdev]
  · rwa [hbuf]
  · rwa [hbuf, hsize]

theorem State.Inv.flightInv {s : State} (hs : s.Inv) : s.FlightInv := by
  obtain ⟨_, _, _, hf⟩ := hs
  exact hf

theorem inv_setHost {s : State} (hs : s.Inv) (later : List HostInput) : (s.setHost later).Inv :=
  hs.of_frame rfl rfl rfl hs.flightInv

theorem inv_hardwareReset (later : List HostInput) (s : State) : (hardwareReset later s).Inv :=
  inv_uninitialized rfl rfl ((flightInv_none rfl).mpr rfl)

theorem inv_createHandle {s : State} {count : Half} (hpos : count ≠ 0) (hcap : count.toNat ≤ Config.dMax)
    (hf : s.FlightInv) (hidle : s.flight = none) : (createHandle count s).Inv := by
  refine ⟨fun _ => ⟨?_, hcap⟩, empty_wf, ?_, hf.of_idle_frame hidle rfl rfl⟩
  · have : count.toNat ≠ 0 := fun h => hpos (BitVec.eq_of_toNat_eq h)
    simp only [createHandle_devices]
    omega
  · simp

/-- SET's write of an existing channel keeps the buffer canonical and within its bytes. -/
theorem inv_storeChannel {s t : State} {c : Nat} {v : Gray} (hs : s.Inv) (hc : baseIndex c + 1 < s.bufSize)
    (h : storeChannel s c v = .ok t) : t.Inv := by
  obtain ⟨hcount, hwf, hcells, hf⟩ := hs
  obtain ⟨m, hm, hmwf, hmcells, _⟩ := storeChannel_spec v hc
  obtain rfl : s.setBuf m = t := Except.ok.inj (hm.symm.trans h)
  refine ⟨hcount, hmwf hwf, fun x hx => ?_, hf⟩
  rcases hmcells x hx with hold | hlo | hhi
  · exact hcells x hold
  · rw [setBuf_bufSize]; omega
  · rw [setBuf_bufSize]; omega

/-- Every command executed with no FLUSH in flight keeps the invariant. -/
theorem ExecEnd.inv {i : Instr} {s t : State} (h : ExecEnd i s t) (hs : s.Inv) (hidle : s.flight = none) : t.Inv := by
  cases h with
  | create _ hpos hcap => exact inv_createHandle hpos hcap hs.flightInv hidle
  | release => exact inv_uninitialized rfl rfl (hs.flightInv.of_idle_frame hidle rfl rfl)
  | store hm hc hstore =>
    have hstored : (s.setBuf _).Inv := inv_storeChannel hs (validChannel_lt_bufSize hm hc) hstore
    exact hstored.of_frame rfl rfl rfl hstored.flightInv
  | flush hm hsend =>
    have hsame := flush_sameButFlush hsend
    exact hs.of_frame hsame.mode hsame.devices hsame.buf (sendBytes_flightInv hsend hm rfl (Nat.le_refl _))
  | _ => exact hs.of_frame rfl rfl rfl hs.flightInv

-- The statements

/-- Settles O41: `inv_hardwareReset` for a reset, `ExecEnd.inv` for a command, `resumeFlight_flightInv` for a FLUSH in flight. -/
theorem stepKeepsTheInvariant : Obligations.StepKeepsTheInvariant := by
  intro s t hs hstep
  cases step_next hstep with
  | reset => exact inv_hardwareReset _ s
  | resume hf hres =>
    have hsame := resumeFlight_sameButFlush hres
    exact hs.of_frame hsame.mode hsame.devices hsame.buf (resumeFlight_flightInv hs.flightInv hf hres)
  | command hi hend =>
    obtain ⟨hidle, _⟩ := hi
    exact hend.inv (inv_setHost hs _) hidle
  | idle => exact hs

/-- Settles O46: of the commands only INIT and TEARDOWN change the mode, and a FLUSH in flight keeps it. -/
theorem onlyInitAndTeardownChangeMode : Obligations.OnlyInitAndTeardownChangeMode := by
  intro s t hr hstep hne
  cases step_next hstep with
  | reset hdue => cases hr.symm.trans hdue
  | resume _ hres => exact absurd (resumeFlight_sameButFlush hres).mode hne
  | command hi hend =>
    rcases hend.mode_change hne with ⟨⟨count, rfl⟩, hmode, hresp⟩ | ⟨rfl, hmode⟩
    · exact .inl ⟨hmode, ⟨count, hi⟩, hresp⟩
    · exact .inr ⟨hmode, hi⟩
  | idle => exact absurd rfl hne

/-- Settles O47: no command keeps the block in ready with another device count, and of them only SET writes the buffer. -/
theorem readyKeepsDevicesAndOnlySetWritesBuffer : Obligations.ReadyKeepsDevicesAndOnlySetWritesBuffer := by
  intro s t hr hstep hs ht
  cases step_next hstep with
  | reset => simp at ht
  | resume _ hres =>
    have hsame := resumeFlight_sameButFlush hres
    exact ⟨hsame.devices, fun hne => absurd hsame.buf hne⟩
  | command hi hend =>
    refine ⟨hend.devices_eq hs ht, fun hne => ?_⟩
    obtain ⟨c, v, rfl⟩ := hend.buf_change hs ht hne
    exact ⟨c, v, hi⟩
  | idle => exact ⟨rfl, fun hne => absurd rfl hne⟩

/-- Settles O48: of the commands FLUSH alone writes LATCH, and it does not write BLANK, at once or in flight. -/
theorem pinsChangeOnlyByTheirCommands : Obligations.PinsChangeOnlyByTheirCommands := by
  intro s t hr hstep
  cases step_next hstep with
  | reset hdue => cases hr.symm.trans hdue
  | resume hf hres =>
    exact ⟨fun _ => .inr (by simp [hf]), fun hne => absurd (resumeFlight_sameButFlush hres).blank hne⟩
  | command hi hend =>
    refine ⟨fun hne => ?_, fun hne => ?_⟩
    · obtain rfl := hend.latch_change hne
      exact .inl hi
    · rcases hend.blank_change hne with rfl | rfl | ⟨⟨count, rfl⟩, hmode⟩
      · exact .inl hi
      · exact .inr (.inl hi)
      · exact .inr (.inr ⟨⟨count, hi⟩, hmode⟩)
  | idle => exact ⟨fun hne => absurd rfl hne, fun hne => absurd rfl hne⟩

/-- Settles O10: the inputs it lists are exactly those for which a reset is due, and the step takes it. -/
theorem resetLeavesStatedValues : Obligations.ResetLeavesStatedValues := by
  refine ⟨⟨rfl, rfl, rfl, rfl, rfl, rfl⟩, fun s later hinput => ?_⟩
  have hdue : s.resetDue = some later := resetDue_eq_some_iff.mpr hinput
  exact ⟨hardwareReset later s, step_reset hdue, rfl, rfl, rfl, rfl, rfl, rfl⟩

/-- Settles O40: after reset there is no handle, nothing is in flight and LATCH is low. -/
theorem resetMeetsTheInvariant : Obligations.ResetMeetsTheInvariant :=
  inv_uninitialized rfl rfl ((flightInv_none rfl).mpr rfl)

end Sys2Proof.Machine
end

section
/-! PROOFS. 20_memory.md R36 to R46: where a channel stands in the buffer, what SET writes there, and the bits of the
buffer in the order in which FLUSH sends them. -/

namespace Sys2Proof.Machine

-- The bytes of an updated state

@[simp] theorem setBuf_byte (s : State) (m : Memory) (i : Nat) : (s.setBuf m).byte i = readCell m i := rfl
@[simp] theorem answerOk_byte (s : State) (d : Half) (i : Nat) : (s.answerOk d).byte i = s.byte i := rfl

-- SET, one equation per case

theorem validChannel_iff {d c : Half} : validChannel d c = true ↔ c.toNat < 24 * d.toNat :=
  decide_eq_true_iff

/-- SET of a valid channel answers OK after the read-modify-write of that channel. -/
theorem exec_set_valid {s : State} {c v : Half} {m : Memory} (hm : s.mode = .ready) (hc : c.toNat < 24 * s.devices.toNat)
    (hstore : storeChannel s c.toNat (clamp v) = .ok (s.setBuf m)) :
    exec (.set c v) s = .next ((s.setBuf m).answerOk 0) := by
  show execSet c v s = _
  rw [execSet, whenReady_ready hm, if_pos (validChannel_iff.mpr hc), hstore]
  rfl

theorem exec_set_invalid {s : State} {c v : Half} (hm : s.mode = .ready) (hc : ¬ c.toNat < 24 * s.devices.toNat) :
    exec (.set c v) s = .next (s.raiseError .invalidArgument 0) := by
  show execSet c v s = _
  rw [execSet, whenReady_ready hm, if_neg (mt validChannel_iff.mp hc)]

/-- SET of a valid channel by the group view: that channel holds the clamped value, every other channel its old one. -/
theorem exec_set_channel {s : State} {c : Half} (v : Half) (hm : s.mode = .ready) (hc : c.toNat < 24 * s.devices.toNat) :
    ∃ t, exec (.set c v) s = .next t ∧ t.mode = .ready ∧ t.devices = s.devices ∧
      ∀ c', t.channel c' = if c' = c.toNat then clamp v else s.channel c' := by
  obtain ⟨m, hstore, hch⟩ := storeChannel_channel (clamp v) (validChannel_lt_bufSize hm (validChannel_iff.mpr hc))
  exact ⟨_, exec_set_valid hm hc hstore, hm, rfl, hch _ rfl⟩

/-- Two SETs of two different valid channels, one after the other. -/
theorem execAll_set_set {s : State} {c d : Half} (v w : Half) (hm : s.mode = .ready) (hc : c.toNat < 24 * s.devices.toNat)
    (hd : d.toNat < 24 * s.devices.toNat) (hne : c.toNat ≠ d.toNat) :
    ∃ t, execAll [.set c v, .set d w] s = .next t ∧ t.channel c.toNat = clamp v ∧ t.channel d.toNat = clamp w := by
  obtain ⟨s₁, hexec₁, hm₁, hdev₁, hch₁⟩ := exec_set_channel v hm hc
  obtain ⟨t, hexec, -, -, hch⟩ := exec_set_channel w hm₁ (hdev₁ ▸ hd)
  refine ⟨t, by simp only [execAll, hexec₁, hexec], ?_, ?_⟩
  · rw [hch, if_neg hne, hch₁, if_pos rfl]
  · rw [hch, if_pos rfl]

-- The group view

/-- A value of 12 bits is not changed by the clamping. -/
theorem clamp_zeroExtend (v : Gray) : clamp (v.zeroExtend 16) = v := by
  apply BitVec.eq_of_toNat_eq
  have := v.isLt
  rw [clamp_toNat, BitVec.toNat_setWidth]
  omega

/-- A group is its odd channel's value above its even channel's (20_memory.md R39). -/
theorem group_eq_channels (s : State) (g : Nat) :
    s.group g = (s.channel (2 * g + 1) ++ s.channel (2 * g) : BitVec (12 + 12)) := by
  have hodd : s.channel (2 * g + 1) = (s.group g).extractLsb' 12 12 := by
    rw [State.channel, if_neg (by omega), show (2 * g + 1) / 2 = g by omega]
  have heven : s.channel (2 * g) = (s.group g).extractLsb' 0 12 := by
    rw [State.channel, if_pos (by omega), show 2 * g / 2 = g by omega]
  rw [hodd, heven, BitVec.extractLsb'_append_extractLsb'_eq_extractLsb' (by rfl)]
  exact BitVec.extractLsb'_eq_self.symm

-- The bits of a value in order of time

theorem bitsMsbFirst_length {n : Nat} (v : BitVec n) : (bitsMsbFirst v).length = n := by
  simp [bitsMsbFirst]

/-- Of two values put together the upper one's bits come first. -/
theorem bitsMsbFirst_append {m n : Nat} (x : BitVec m) (y : BitVec n) :
    bitsMsbFirst (x ++ y) = bitsMsbFirst x ++ bitsMsbFirst y := by
  simp only [bitsMsbFirst, List.range_add, List.map_append, List.map_map]
  congr 1
  · refine List.map_congr_left fun k hk => ?_
    have hlt : k < m := List.mem_range.mp hk
    rw [BitVec.getLsbD_append, if_neg (by omega), show m + n - 1 - k - n = m - 1 - k by omega]
  · refine List.map_congr_left fun k hk => ?_
    have hlt : k < n := List.mem_range.mp hk
    rw [Function.comp_apply, BitVec.getLsbD_append, if_pos (by omega), show m + n - 1 - (m + k) = n - 1 - k by omega]

/-- The bits of a group's three bytes from the last, and of its two channels from the last, are the same. -/
theorem groupBits_eq (s : State) (g : Nat) :
    bitsMsbFirst (s.byte (3 * g + 2)) ++ (bitsMsbFirst (s.byte (3 * g + 1)) ++ bitsMsbFirst (s.byte (3 * g))) =
      bitsMsbFirst (s.channel (2 * g + 1)) ++ bitsMsbFirst (s.channel (2 * g)) := by
  rw [← bitsMsbFirst_append, ← bitsMsbFirst_append, ← bitsMsbFirst_append]
  exact congrArg bitsMsbFirst (group_eq_channels s g)

/-- The bits of the first `g` groups' bytes from the last are those of their channels from the last. -/
theorem byteBits_eq_channelBits (s : State) (g : Nat) :
    (List.range (3 * g)).reverse.flatMap (fun i => bitsMsbFirst (s.byte i)) =
      (List.range (2 * g)).reverse.flatMap (fun c => bitsMsbFirst (s.channel c)) := by
  induction g with
  | zero => rfl
  | succ g ih =>
    have hbytes : (List.range (3 * (g + 1))).reverse =
        (3 * g + 2) :: (3 * g + 1) :: (3 * g) :: (List.range (3 * g)).reverse := by
      simp [Nat.mul_succ, List.range_succ]
    have hchannels : (List.range (2 * (g + 1))).reverse = (2 * g + 1) :: (2 * g) :: (List.range (2 * g)).reverse := by
      simp [Nat.mul_succ, List.range_succ]
    have hgroup := groupBits_eq s g
    rw [hbytes, hchannels]
    simp only [List.flatMap_cons, ih, ← List.append_assoc] at hgroup ⊢
    rw [hgroup]

theorem channelBits_length (s : State) (n : Nat) :
    ((List.range n).reverse.flatMap (fun c => bitsMsbFirst (s.channel c))).length = 12 * n := by
  simp [List.length_flatMap, bitsMsbFirst_length, Nat.mul_comm]

-- The bits on the wire

/-- No event of the list is a byte answered `fail`. -/
def NoFailedByte (es : List Event) : Prop := ∀ b, Event.tx b .fail ∉ es

theorem NoFailedByte.append {es es' : List Event} (h : NoFailedByte es) (h' : NoFailedByte es') :
    NoFailedByte (es ++ es') :=
  fun b hb => (List.mem_append.mp hb).elim (h b) (h' b)

theorem eventBits_of_ne_failed (msbFirst : Bool) (failed : List Bool) {e : Event} (h : ∀ b, e ≠ .tx b .fail) :
    eventBits msbFirst failed e = eventBits msbFirst [] e := by
  rcases e with _ | ⟨b, _ | _⟩
  case tx.fail => exact absurd rfl (h b)
  all_goals rfl

/-- Without a failed byte the wire carries the bits of the events, whatever a failed byte would put there. -/
theorem wireBits_noFailedByte (msbFirst : Bool) {es : List Event} (h : NoFailedByte es) (failed : Nat → List Bool) :
    wireBits msbFirst failed es = es.flatMap (eventBits msbFirst []) := by
  induction es generalizing failed with
  | nil => rfl
  | cons e es ih =>
    have htail := ih (fun b hb => h b (List.mem_cons_of_mem _ hb)) (fun n => failed (n + 1))
    have hhead : eventBits msbFirst (failed 0) e = eventBits msbFirst [] e :=
      eventBits_of_ne_failed _ _ fun b hb => h b (hb ▸ List.mem_cons_self)
    simp only [wireBits, List.mapIdx_cons, List.flatten_cons, List.flatMap_cons] at htail ⊢
    rw [hhead, htail]

/-- The events are pin writes. -/
def OnlyPins (es : List Event) : Prop := ∀ e ∈ es, ∃ p l, e = .pin p l

theorem OnlyPins.noFailedByte {es : List Event} (h : OnlyPins es) : NoFailedByte es := fun b hb => by
  obtain ⟨p, l, hpin⟩ := h _ hb
  cases hpin

/-- Pin writes put nothing on the wire. -/
theorem OnlyPins.flatMap_eventBits {es : List Event} (h : OnlyPins es) (msbFirst : Bool) :
    es.flatMap (eventBits msbFirst []) = [] := by
  refine List.flatMap_eq_nil_iff.mpr fun e he => ?_
  obtain ⟨p, l, rfl⟩ := h e he
  rfl

theorem onlyPins_latchLow : OnlyPins [.pin .latch .low] := by simp [OnlyPins]

-- FLUSH with its bytes answered `ok`

/-- The events of `k` bytes answered `ok`, from byte `n-1` downwards (41_chain_ops.md R85). -/
def okEvents (s : State) (n k : Nat) : List Event :=
  (List.range k).map (fun j => .tx (s.byte (n - 1 - j)) .ok)

theorem okEvents_succ (s : State) (n k : Nat) : okEvents s (n + 1) (k + 1) = .tx (s.byte n) .ok :: okEvents s n k := by
  simp [okEvents, List.range_succ_eq_map, Function.comp_def, Nat.sub_sub, Nat.add_comm]

/-- Whatever follows, the bytes answered `ok` are sent, and the FLUSH goes on with the ones left. -/
theorem sendBytes_ok_run {n k : Nat} {s : State} {rest : List TxReply} (hn : n + k ≤ s.bufSize)
    (hr : s.replies = List.replicate k (.answer .ok) ++ rest) :
    sendBytes (n + k) s = sendBytes n { s with trace := s.trace ++ okEvents s (n + k) k, replies := rest } := by
  induction k generalizing s with
  | zero =>
    obtain rfl : s.replies = rest := hr
    simp [okEvents]
  | succ k ih =>
    have hreply : s.nextReply = (.answer .ok, s.setReplies (List.replicate k (.answer .ok) ++ rest)) := by
      simp [State.nextReply, hr, List.replicate_succ]
    have hread : memRead s (n + k) = .ok (s.byte (n + k)) := memRead_eq (by omega)
    have hstep : sendBytes (n + (k + 1)) s = sendBytes (n + k)
        ((s.setReplies (List.replicate k (.answer .ok) ++ rest)).emit (.tx (s.byte (n + k)) .ok)) := by
      rw [← Nat.add_assoc, sendBytes, hread]
      simp only [bind, Except.bind, hreply]
    rw [hstep, ih (by simp; omega) rfl, ← Nat.add_assoc, okEvents_succ]
    simp [State.emit, State.setReplies, okEvents, State.byte]

theorem okEvents_noFailedByte (s : State) (n k : Nat) : NoFailedByte (okEvents s n k) := by
  simp [NoFailedByte, okEvents]

/-- All bytes sent from the last to byte 0, each most significant bit first. -/
theorem okEvents_flatMap_eventBits (s : State) (n : Nat) :
    (okEvents s n n).flatMap (eventBits true []) = (List.range n).reverse.flatMap (fun i => bitsMsbFirst (s.byte i)) := by
  have hrev : (List.range n).reverse = (List.range n).map (fun j => n - 1 - j) := by
    simpa only [← List.range_eq_range', Nat.zero_add] using List.reverse_range' (s := 0) (n := n)
  rw [okEvents, hrev, List.flatMap_map, List.flatMap_map]
  rfl

/-- The latch pulse, cut by a reset or not, emits pin writes only. -/
theorem latchPulse_trace (s : State) : ∃ pins, (latchPulse s).trace = s.trace ++ pins ∧ OnlyPins pins := by
  rcases latchPulse_cases s with ⟨_, h⟩ | ⟨_, h⟩
  · exact ⟨[.pin .latch .high, .pin .latch .low], by simp [h, endPulse], by simp [OnlyPins]⟩
  · exact ⟨[.pin .latch .high], by simp [h], by simp [OnlyPins]⟩

/-- Every byte of the buffer answered `ok`, FLUSH drives LATCH low, sends all bytes and comes to its latch pulse. -/
theorem exec_flush_all_ok {s : State} {rest : List TxReply} (hm : s.mode = .ready)
    (hr : s.replies = List.replicate (bufLength s.devices) (.answer .ok) ++ rest) :
    exec .flush s = .next (latchPulse { s.drivePin .latch .low with
      trace := s.trace ++ [.pin .latch .low] ++ okEvents s (bufLength s.devices) (bufLength s.devices)
      replies := rest }) := by
  have hsend := sendBytes_ok_run (n := 0) (s := s.drivePin .latch .low) (k := bufLength s.devices)
    (by simp [bufSize_ready hm]) hr
  rw [Nat.zero_add] at hsend
  show execFlush s = _
  rw [execFlush, whenReady_ready hm, hsend]
  rfl

/-- What such a FLUSH emits: the bytes, between pin writes. -/
theorem exec_flush_all_ok_trace {s : State} {rest : List TxReply} (hm : s.mode = .ready)
    (hr : s.replies = List.replicate (bufLength s.devices) (.answer .ok) ++ rest) :
    ∃ t pins, exec .flush s = .next t ∧ OnlyPins pins ∧
      t.trace = s.trace ++ ([.pin .latch .low] ++ okEvents s (bufLength s.devices) (bufLength s.devices) ++ pins) := by
  obtain ⟨pins, htrace, hpins⟩ := latchPulse_trace { s.drivePin .latch .low with
    trace := s.trace ++ [.pin .latch .low] ++ okEvents s (bufLength s.devices) (bufLength s.devices)
    replies := rest }
  exact ⟨_, pins, exec_flush_all_ok hm hr, hpins, by rw [htrace]; simp only [List.append_assoc]⟩

/-- The wire carries the bytes sent and nothing of the pin writes around them. -/
theorem wireBits_okEvents (s : State) (n : Nat) {before after : List Event} (hb : OnlyPins before) (ha : OnlyPins after)
    (failed : Nat → List Bool) :
    wireBits true failed (before ++ okEvents s n n ++ after) =
      (List.range n).reverse.flatMap (fun i => bitsMsbFirst (s.byte i)) := by
  have hnofail : NoFailedByte (before ++ okEvents s n n ++ after) :=
    (hb.noFailedByte.append (okEvents_noFailedByte s n n)).append ha.noFailedByte
  rw [wireBits_noFailedByte true hnofail, List.flatMap_append, List.flatMap_append, hb.flatMap_eventBits,
    ha.flatMap_eventBits, okEvents_flatMap_eventBits, List.nil_append, List.append_nil]

-- The statements

/-- Settles O27: the even and the odd equation of the base index, then the bounds by arithmetic. -/
theorem channelAddressesStayInTheirDevice : Obligations.ChannelAddressesStayInTheirDevice := by
  refine ⟨fun g => ⟨baseIndex_even g, baseIndex_odd g⟩, fun d c hc => ⟨?_, ?_, ?_⟩⟩
  · exact validChannel_in_buffer (validChannel_iff.mpr hc)
  · simp only [baseIndex]; omega
  · simp only [baseIndex]; omega

/-- Settles O18: the bytes after the read-modify-write as `storeChannel_spec` gives them, read as numbers. -/
theorem setWritesItsByteAndNibble : Obligations.SetWritesItsByteAndNibble := by
  intro s c v hm
  by_cases hc : c.toNat < 24 * s.devices.toNat
  case neg => rw [if_neg hc]; exact exec_set_invalid hm hc
  case pos =>
    rw [if_pos hc]
    obtain ⟨m, hstore, -, -, hread⟩ :=
      storeChannel_spec (clamp v) (validChannel_lt_bufSize hm (validChannel_iff.mpr hc))
    refine ⟨_, exec_set_valid hm hc hstore, rfl, fun i h₀ h₁ => ?_, fun heven => ?_, fun hodd => ?_⟩
    · rw [answerOk_byte, setBuf_byte, hread, if_neg h₀, if_neg h₁]
    · simp [hread, heven, evenByte_toNat, evenShared_toNat]
    · simp [hread, hodd, oddShared_toNat, oddByte_toNat]

/-- Settles O25: in either order both channels hold their values, and the group is the two put together. -/
theorem setPairFillsItsGroup : Obligations.SetPairFillsItsGroup := by
  intro s g e o hm hg hbound
  have heven : (BitVec.ofNat 16 (2 * g)).toNat = 2 * g := by rw [BitVec.toNat_ofNat]; omega
  have hodd : (BitVec.ofNat 16 (2 * g + 1)).toNat = 2 * g + 1 := by rw [BitVec.toNat_ofNat]; omega
  have hvalidEven : (BitVec.ofNat 16 (2 * g)).toNat < 24 * s.devices.toNat := by omega
  have hvalidOdd : (BitVec.ofNat 16 (2 * g + 1)).toNat < 24 * s.devices.toNat := by omega
  obtain ⟨t, ht, hte, hto⟩ :=
    execAll_set_set (e.zeroExtend 16) (o.zeroExtend 16) hm hvalidEven hvalidOdd (by omega)
  obtain ⟨u, hu, huo, hue⟩ :=
    execAll_set_set (o.zeroExtend 16) (e.zeroExtend 16) hm hvalidOdd hvalidEven (by omega)
  rw [heven, clamp_zeroExtend] at hte hue
  rw [hodd, clamp_zeroExtend] at hto huo
  refine ⟨t, u, ht, hu, ?_, ?_⟩
  · rw [group_eq_channels, hte, hto]
  · rw [group_eq_channels, hue, huo]

/-- Settles O36: the wire carries the bytes from the last, and group by group these are the channels' bits. -/
theorem wireCarriesChannelsMsbFirst : Obligations.WireCarriesChannelsMsbFirst := by
  intro s rest failed hm hr
  obtain ⟨t, pins, hexec, hpins, htrace⟩ := exec_flush_all_ok_trace hm hr
  have hlen : bufLength s.devices = 3 * (12 * s.devices.toNat) := by
    simp only [bufLength, Config.bytesPerDevice]; omega
  have hwire := wireBits_okEvents s (bufLength s.devices) onlyPins_latchLow hpins failed
  rw [congrArg List.range hlen, byteBits_eq_channelBits, ← Nat.mul_assoc] at hwire
  refine ⟨_, t, hexec, htrace, hwire, ?_⟩
  rw [hwire, channelBits_length]
  omega

end Sys2Proof.Machine
end

section
/-! PROOFS. 30_encoding.md R54 to R58: which command a word selects, and what decode and encode keep of each other. -/

namespace Sys2Proof

-- The decoder, one equation per row of the opcode table

theorem decode_init {w : CommandWord} (h : opField w = 0) : decode w = .init (dField w) := by simp [decode, h]

theorem decode_teardown {w : CommandWord} (h : opField w = 1) : decode w = .teardown := by simp [decode, h]

theorem decode_set {w : CommandWord} (h : opField w = 2) : decode w = .set (aField w) (dField w) := by simp [decode, h]

theorem decode_get {w : CommandWord} (h : opField w = 3) : decode w = .get (aField w) := by simp [decode, h]

theorem decode_flush {w : CommandWord} (h : opField w = 4) : decode w = .flush := by simp [decode, h]

theorem decode_enableOutputs {w : CommandWord} (h : opField w = 5) : decode w = .enableOutputs := by simp [decode, h]

theorem decode_disableOutputs {w : CommandWord} (h : opField w = 6) : decode w = .disableOutputs := by simp [decode, h]

theorem decode_reserved {w : CommandWord} (h : opField w = 7) : decode w = .reserved := by simp [decode, h]

/-- The rows of the opcode table that a word can select, each with the opcode that selects it (R55, R56). -/
inductive SelectsRow (w : CommandWord) : Instr → Prop
  | init (h : opField w = 0) : SelectsRow w (.init (dField w))
  | teardown (h : opField w = 1) : SelectsRow w .teardown
  | set (h : opField w = 2) : SelectsRow w (.set (aField w) (dField w))
  | get (h : opField w = 3) : SelectsRow w (.get (aField w))
  | flush (h : opField w = 4) : SelectsRow w .flush
  | enableOutputs (h : opField w = 5) : SelectsRow w .enableOutputs
  | disableOutputs (h : opField w = 6) : SelectsRow w .disableOutputs
  | reserved (h : opField w = 7) : SelectsRow w .reserved

theorem opcode_number_cases : ∀ op : BitVec 3,
    op = 0 ∨ op = 1 ∨ op = 2 ∨ op = 3 ∨ op = 4 ∨ op = 5 ∨ op = 6 ∨ op = 7 := by decide

/-- The decoder is total: every word selects one of the eight rows. -/
theorem selectsRow_decode (w : CommandWord) : SelectsRow w (decode w) := by
  rcases opcode_number_cases (opField w) with h | h | h | h | h | h | h | h
  · rw [decode_init h]; exact .init h
  · rw [decode_teardown h]; exact .teardown h
  · rw [decode_set h]; exact .set h
  · rw [decode_get h]; exact .get h
  · rw [decode_flush h]; exact .flush h
  · rw [decode_enableOutputs h]; exact .enableOutputs h
  · rw [decode_disableOutputs h]; exact .disableOutputs h
  · rw [decode_reserved h]; exact .reserved h

-- Masked words

/-- Masking a word masks its fields; the masks of the opcode table keep the whole of `op`. -/
theorem and_commandWord_seven (w : CommandWord) (a d : Half) :
    w &&& commandWord 7 a d = commandWord (opField w) (aField w &&& a) (dField w &&& d) := by
  have h7 : opField w &&& 7 = opField w := BitVec.and_allOnes
  calc w &&& commandWord 7 a d
      = commandWord (opField w) (aField w) (dField w) &&& commandWord 7 a d := by rw [commandWord_fields]
    _ = commandWord (opField w) (aField w &&& a) (dField w &&& d) := by rw [commandWord_and, h7]

/-- The decoder's mask compares the opcode alone (R56). -/
theorem opField_of_masked {w : CommandWord} {op : BitVec 3} (h : w &&& commandWord 7 0 0 = commandWord op 0 0) :
    opField w = op := by
  have hop : opField (w &&& commandWord 7 0 0) = op := by rw [h, opField_commandWord]
  rwa [and_commandWord_seven, opField_commandWord] at hop

/-- A row's word is the masked word when its opcode is the word's and its operands are the masked fields. -/
theorem commandWord_eq_masked {w : CommandWord} {op : BitVec 3} {a d aMask dMask : Half} (hop : opField w = op)
    (ha : aField w &&& aMask = a) (hd : dField w &&& dMask = d) : commandWord op a d = w &&& commandWord 7 aMask dMask := by
  rw [and_commandWord_seven, hop, ha, hd]

/-- The used bits of a selected row are the opcode and the operands that the row's command keeps. -/
theorem SelectsRow.encode_eq {w : CommandWord} {i : Instr} (h : SelectsRow w i) : encode i = w &&& usedBits i := by
  cases h with
  | init h => exact commandWord_eq_masked h BitVec.and_zero (Laws.OpcodeField.all_ones _)
  | set h => exact commandWord_eq_masked h (Laws.OpcodeField.all_ones _) (Laws.OpcodeField.all_ones _)
  | get h => exact commandWord_eq_masked h (Laws.OpcodeField.all_ones _) BitVec.and_zero
  | teardown h | flush h | enableOutputs h | disableOutputs h | reserved h =>
    exact commandWord_eq_masked h BitVec.and_zero BitVec.and_zero

/-- The row that a word selects depends on `op` and on the operands that the row uses, and on nothing else (R57). -/
theorem SelectsRow.decode_eq {w w' : CommandWord} {i : Instr} (h : SelectsRow w i) (hop : opField w = opField w')
    (ha : opField w = 2 ∨ opField w = 3 → aField w = aField w')
    (hd : opField w = 0 ∨ opField w = 2 → dField w = dField w') : decode w' = i := by
  cases h with
  | init h => rw [decode_init (hop ▸ h), hd (.inl h)]
  | teardown h => exact decode_teardown (hop ▸ h)
  | set h => rw [decode_set (hop ▸ h), ha (.inl h), hd (.inr h)]
  | get h => rw [decode_get (hop ▸ h), ha (.inr h)]
  | flush h => exact decode_flush (hop ▸ h)
  | enableOutputs h => exact decode_enableOutputs (hop ▸ h)
  | disableOutputs h => exact decode_disableOutputs (hop ▸ h)
  | reserved h => exact decode_reserved (hop ▸ h)

-- The statements

/-- Settles O3: the word of each command holds the opcode of its row, and the operands in the fields that the row reads. -/
theorem decodeOfEncodeIsTheCommand : Obligations.DecodeOfEncodeIsTheCommand := by
  intro i
  cases i with
  | init n => exact (decode_init (opField_commandWord _ _ _)).trans (congrArg Instr.init (dField_commandWord _ _ _))
  | teardown => exact decode_teardown (opField_commandWord _ _ _)
  | set c v =>
    exact (decode_set (opField_commandWord _ _ _)).trans
      (congrArg₂ Instr.set (aField_commandWord _ _ _) (dField_commandWord _ _ _))
  | get c => exact (decode_get (opField_commandWord _ _ _)).trans (congrArg Instr.get (aField_commandWord _ _ _))
  | flush => exact decode_flush (opField_commandWord _ _ _)
  | enableOutputs => exact decode_enableOutputs (opField_commandWord _ _ _)
  | disableOutputs => exact decode_disableOutputs (opField_commandWord _ _ _)
  | reserved => exact decode_reserved (opField_commandWord _ _ _)

/-- Settles O2: each masked value gives the opcode, and the opcode gives the row. -/
theorem commandSelectedByOpcodeBits : Obligations.CommandSelectedByOpcodeBits := by
  intro w
  exact ⟨fun h => decode_init (opField_of_masked h), fun h => decode_teardown (opField_of_masked h),
    fun h => decode_set (opField_of_masked h), fun h => decode_get (opField_of_masked h),
    fun h => decode_flush (opField_of_masked h), fun h => decode_enableOutputs (opField_of_masked h),
    fun h => decode_disableOutputs (opField_of_masked h), fun h => decode_reserved (opField_of_masked h)⟩

/-- Settles O4: row by row, for the row that the word selects. -/
theorem encodeOfDecodeClearsIgnoredBits : Obligations.EncodeOfDecodeClearsIgnoredBits := by
  intro w
  exact (selectsRow_decode w).encode_eq

/-- Settles O1: the decoder's equations at these words. -/
theorem decodeReadsSpecWords : Obligations.DecodeReadsSpecWords :=
  ⟨decode_init rfl, decode_teardown rfl, decode_set rfl, decode_set rfl, decode_get rfl, decode_flush rfl,
    decode_enableOutputs rfl, decode_disableOutputs rfl, decode_reserved rfl⟩

end Sys2Proof
end

section
/-! PROOFS. 30_encoding.md R57 to R64: what an ignored field and the reserved opcode do to a step, the word and the data of
a response, and the clamping of an operand. -/

namespace Sys2Proof.Machine

-- Operands and response words as numbers

/-- The response word as a number (R60). -/
theorem responseWord_toNat (r : Response) :
    (responseWord r).toNat = (statusCode r.status).toNat * 2 ^ 16 + r.data.toNat := by
  have h : (statusCode r.status ++ r.data : BitVec (2 + 16)).toNat =
      (statusCode r.status).toNat * 2 ^ 16 + r.data.toNat := by
    rw [BitVec.toNat_append, ← Nat.shiftLeft_add_eq_or_of_lt r.data.isLt, Nat.shiftLeft_eq]
  exact h

/-- The bits that the clamping tests are zero exactly for a value of 12 bits. -/
theorem topNibble_eq_zero_iff (v : Half) : v.extractLsb' 12 4 = 0 ↔ v.toNat ≤ 4095 := by
  have := v.isLt
  have h : (v.extractLsb' 12 4).toNat = v.toNat / 4096 := by
    rw [BitVec.extractLsb'_toNat, Nat.shiftRight_eq_div_pow]
    omega
  rw [← BitVec.toNat_inj, h]
  change v.toNat / 4096 = 0 ↔ v.toNat ≤ 4095
  omega

-- What a command returns

/-- A FLUSH that has not returned: it waits for an answer, or reset is to fall in its pulse (41_chain_ops.md R90,
70_reset_and_hazards.md R126). -/
def LeftInFlight (s t : State) : Prop :=
  t.responses = s.responses ∧ ((∃ k, t.flight = some (.wait k)) ∨ (s.cutsPulse = true ∧ t.flight = some .pulse))

theorem SendEnd.answer {n k : Nat} {s t : State} (h : SendEnd n k s t) :
    (∃ st, t.responses = s.responses ++ [⟨st, 0⟩]) ∨ LeftInFlight s t := by
  rcases h with ⟨_, _, hresp, _⟩ | ⟨_, _, hresp, hfl, _, hcut⟩ | ⟨_, _, hresp, _⟩ | ⟨_, _, hresp, hfl, _⟩
  case inl => exact .inl ⟨.ok, hresp⟩
  case inr.inl => exact .inr ⟨hresp, .inr ⟨hcut, hfl⟩⟩
  case inr.inr.inl => exact .inl ⟨.transportError, hresp⟩
  case inr.inr.inr => exact .inr ⟨hresp, .inl ⟨_, hfl⟩⟩

theorem sendBytes_answer {n : Nat} {s t : State} (h : sendBytes n s = .ok t) :
    (∃ st, t.responses = s.responses ++ [⟨st, 0⟩]) ∨ LeftInFlight s t := by
  obtain ⟨_, k, _, hend⟩ := sendBytes_cases h
  exact hend.answer

theorem resumeFlight_answer {f : Flight} {s t : State} (h : resumeFlight f s = .ok t) :
    (∃ st, t.responses = s.responses ++ [⟨st, 0⟩]) ∨ LeftInFlight s t := by
  rcases resumeFlight_cases h with ⟨_, rfl⟩ | ⟨i, _, hsend⟩
  · exact .inl ⟨.ok, by simp [endPulse]⟩
  · exact sendBytes_answer hsend

/-- Every command that gives a next state returns one response, with data for GET alone, or is a FLUSH that has not
returned. -/
theorem ExecEnd.answer {i : Instr} {s t : State} (h : ExecEnd i s t) :
    (∃ r, t.responses = s.responses ++ [r] ∧ (r.data ≠ 0 → ∃ c, i = .get c)) ∨ (i = .flush ∧ LeftInFlight s t) := by
  cases h with
  | load | loadInvalid => exact .inl ⟨_, rfl, fun _ => ⟨_, rfl⟩⟩
  | flush _ hsend =>
    rcases sendBytes_answer hsend with ⟨st, hresp⟩ | hleft
    · exact .inl ⟨_, hresp, fun hdata => absurd rfl hdata⟩
    · exact .inr ⟨rfl, hleft⟩
  | _ => exact .inl ⟨_, rfl, fun hdata => absurd rfl hdata⟩

-- The statements

/-- Settles O5: the two words decode to one command, which is all that the step takes from them. -/
theorem ignoredFieldsHaveNoEffect : Obligations.IgnoredFieldsHaveNoEffect := by
  intro w w' hop ha hd
  have hdec : decode w = decode w' := ((selectsRow_decode w).decode_eq hop ha hd).symm
  refine ⟨hdec, fun s later hf => ?_⟩
  calc step (s.setHost (.command w :: later))
      = exec (decode w) (s.setHost later) := step_command hf rfl
    _ = exec (decode w') (s.setHost later) := by rw [hdec]
    _ = step (s.setHost (.command w' :: later)) := (step_command (s := s.setHost (.command w' :: later)) hf rfl).symm

/-- Settles O44: a reset is excluded, a FLUSH in flight returns no data, and of the commands only GET does. -/
theorem onlyGetReturnsData : Obligations.OnlyGetReturnsData := by
  intro s t hr hstep
  cases step_next hstep with
  | reset hdue => cases hr.symm.trans hdue
  | resume _ hres =>
    rcases resumeFlight_answer hres with ⟨st, hresp⟩ | ⟨hresp, _⟩
    · exact .inr ⟨_, hresp, fun hdata => absurd rfl hdata⟩
    · exact .inl hresp
  | command hi hend =>
    rcases hend.answer with ⟨r, hresp, hget⟩ | ⟨_, hresp, _⟩
    · refine .inr ⟨r, hresp, fun hdata => ?_⟩
      obtain ⟨c, rfl⟩ := hget hdata
      exact ⟨c, hi⟩
    · exact .inl hresp
  | idle => exact .inl rfl

/-- Settles O45: what `ExecEnd.answer` says, without the data. -/
theorem everyCommandReturnsOneResponse : Obligations.EveryCommandReturnsOneResponse := by
  intro i s t hexec
  rcases (exec_next hexec).answer with ⟨r, hresp, _⟩ | ⟨hi, hresp, hflight⟩
  · exact .inl ⟨r, hresp⟩
  · exact .inr ⟨hi, hresp, hflight⟩

/-- Settles O6: the number of the response word at each status code. -/
theorem responseWordHoldsStatusAndData : Obligations.ResponseWordHoldsStatusAndData := by
  intro d
  simp [responseWord_toNat, statusCode]

/-- Settles O17: the reserved row has no meaning, and a word with its opcode decodes to it. -/
theorem reservedOpcodeIsRefused : Obligations.ReservedOpcodeIsRefused := by
  have hexec : ∀ s : State, exec .reserved s = .refused .reservedOpcode := fun _ => rfl
  refine ⟨hexec, fun s w later hf hh hop => ?_⟩
  rw [step_command hf hh, decode_reserved hop, hexec]

/-- Settles O21: above 12 bits the minimum is 4095, below it is the value, which then has no higher bit. -/
theorem clampSaturates : Obligations.ClampSaturates := by
  intro v
  refine ⟨clamp_toNat v, BitVec.eq_of_toNat_eq ?_⟩
  rw [clamp_toNat]
  by_cases hv : v.toNat ≤ 4095
  · rw [if_neg (not_not_intro ((topNibble_eq_zero_iff v).mpr hv)), BitVec.extractLsb'_toNat, Nat.shiftRight_zero]
    omega
  · rw [if_pos (mt (topNibble_eq_zero_iff v).mp hv), Nat.min_eq_right (by omega)]
    rfl

end Sys2Proof.Machine
end

section
/-! PROOFS. 40_buffer_ops.md R71 to R76: what GET answers, what SET leaves to the other channels, and the buffer as the
values of its channels. -/

namespace Sys2Proof.Machine

-- Operands and nibbles

/-- Every value above 12 bits is clamped to one and the same (30_encoding.md R64). -/
theorem clamp_large {v : Half} (hv : 4095 < v.toNat) : clamp v = clamp 4095 := by
  apply BitVec.eq_of_toNat_eq
  rw [clamp_toNat, clamp_toNat, Nat.min_eq_right (by omega)]
  rfl

theorem grayData_clamp (v : Half) : grayData (clamp v) = BitVec.ofNat 16 (min v.toNat 4095) := by
  apply BitVec.eq_of_toNat_eq
  rw [grayData_toNat, clamp_toNat, BitVec.toNat_ofNat]
  omega

theorem grayData_le (v : Gray) : (grayData v).toNat ≤ 0x0FFF := by
  have := v.isLt
  rw [grayData_toNat]
  omega

/-- No stored value is answered as the sentinel (00_scope.md R8). -/
theorem grayData_ne_sentinel (v : Gray) : grayData v ≠ Config.sentinel := by
  intro h
  have hle := grayData_le v
  rw [h] at hle
  exact absurd hle (by decide)

/-- The shared byte of an even channel keeps the odd neighbour's nibble (20_memory.md R37). -/
theorem highNibble_evenShared (t : Byte) (v : Gray) : highNibble (evenShared t v) = highNibble t := by
  apply BitVec.eq_of_toNat_eq
  have := v.isLt
  rw [highNibble_toNat, highNibble_toNat, evenShared_toNat]
  omega

/-- The shared byte of an odd channel keeps the even neighbour's nibble (20_memory.md R38). -/
theorem lowNibble_oddShared (t : Byte) (v : Gray) : lowNibble (oddShared t v) = lowNibble t := by
  apply BitVec.eq_of_toNat_eq
  rw [lowNibble_toNat, lowNibble_toNat, oddShared_toNat]
  omega

-- The value of a channel as a number, at the channel's own byte index

theorem channel_toNat_even (s : State) {c : Nat} (hc : c % 2 = 0) :
    (s.channel c).toNat = (s.byte (baseIndex c)).toNat + 256 * ((s.byte (baseIndex c + 1)).toNat % 16) := by
  obtain ⟨g, rfl⟩ : ∃ g, c = 2 * g := ⟨c / 2, by omega⟩
  rw [channel_even, evenValue_toNat, baseIndex_even]

theorem channel_toNat_odd (s : State) {c : Nat} (hc : c % 2 = 1) :
    (s.channel c).toNat = (s.byte (baseIndex c)).toNat / 16 + 16 * (s.byte (baseIndex c + 1)).toNat := by
  obtain ⟨g, rfl⟩ : ∃ g, c = 2 * g + 1 := ⟨c / 2, by omega⟩
  rw [channel_odd, oddValue_toNat, baseIndex_odd]

-- GET, one equation per case

/-- GET of a valid channel answers OK with the channel's value, and changes nothing else. -/
theorem exec_get_valid {s : State} {c : Half} (hm : s.mode = .ready) (hc : c.toNat < 24 * s.devices.toNat) :
    exec (.get c) s = .next (s.answerOk (grayData (s.channel c.toNat))) := by
  have hvalid : validChannel s.devices c = true := validChannel_iff.mpr hc
  show execGet c s = _
  rw [execGet, whenReady_ready hm, if_pos hvalid, loadChannel_channel (validChannel_lt_bufSize hm hvalid)]
  rfl

/-- GET of an invalid channel answers the sentinel with InvalidArgument (60_exceptions.md R104). -/
theorem exec_get_invalid {s : State} {c : Half} (hm : s.mode = .ready) (hc : ¬ c.toNat < 24 * s.devices.toNat) :
    exec (.get c) s = .next (s.raiseError .invalidArgument Config.sentinel) := by
  show execGet c s = _
  rw [execGet, whenReady_ready hm, if_neg (mt validChannel_iff.mp hc)]

-- SET of a valid channel, by its bytes

/-- The bytes that SET of a valid channel leaves: those outside the channel's two, and the neighbour's nibble in the byte
that the two share (40_buffer_ops.md R72). -/
structure SameOutsideChannel (c : Nat) (s t : State) : Prop where
  byte : ∀ i, i ≠ baseIndex c → i ≠ baseIndex c + 1 → t.byte i = s.byte i
  high : c % 2 = 0 → highNibble (t.byte (baseIndex c + 1)) = highNibble (s.byte (baseIndex c + 1))
  low : c % 2 = 1 → lowNibble (t.byte (baseIndex c)) = lowNibble (s.byte (baseIndex c))

theorem storeChannel_sameOutside {s t : State} {c : Nat} {v : Gray} (hc : baseIndex c + 1 < s.bufSize)
    (h : storeChannel s c v = .ok t) : SameOutsideChannel c s t := by
  obtain ⟨m, hstore, -, -, hread⟩ := storeChannel_spec v hc
  obtain rfl : s.setBuf m = t := Except.ok.inj (hstore.symm.trans h)
  constructor
  case byte => intro i h₀ h₁; rw [setBuf_byte, hread, if_neg h₀, if_neg h₁]
  case high => intro heven; simp [hread, heven, highNibble_evenShared]
  case low => intro hodd; simp [hread, hodd, lowNibble_oddShared]

theorem exec_set_sameOutside {s t : State} {c v : Half} (hc : c.toNat < 24 * s.devices.toNat)
    (h : exec (.set c v) s = .next t) : SameOutsideChannel c.toNat s t := by
  have hvalid : validChannel s.devices c = true := validChannel_iff.mpr hc
  cases exec_next h with
  | store hm _ hstore =>
    obtain ⟨hbyte, hhigh, hlow⟩ := storeChannel_sameOutside (validChannel_lt_bufSize hm hvalid) hstore
    exact ⟨hbyte, hhigh, hlow⟩
  | storeInvalid _ hinvalid => simp [hvalid] at hinvalid

-- The buffer is the values of its channels

/-- The bytes of a group are determined by its number. -/
theorem byte_eq_of_group_eq {s t : State} {i : Nat} (h : s.group (i / 3) = t.group (i / 3)) : s.byte i = t.byte i := by
  have hnum := congrArg BitVec.toNat h
  rw [group_toNat, group_toNat] at hnum
  have hs₀ := (s.byte (3 * (i / 3))).isLt
  have hs₁ := (s.byte (3 * (i / 3) + 1)).isLt
  have ht₀ := (t.byte (3 * (i / 3))).isLt
  have ht₁ := (t.byte (3 * (i / 3) + 1)).isLt
  apply BitVec.eq_of_toNat_eq
  obtain hi | hi | hi : i = 3 * (i / 3) ∨ i = 3 * (i / 3) + 1 ∨ i = 3 * (i / 3) + 2 := by omega
  all_goals
    rw [hi]
    omega

/-- Channels that hold the same values stand in the same bytes. -/
theorem byte_eq_of_channels_eq {s t : State} {n i : Nat} (hch : ∀ c, c < 24 * n → s.channel c = t.channel c)
    (hi : i < 36 * n) : s.byte i = t.byte i := by
  apply byte_eq_of_group_eq
  rw [group_eq_channels, group_eq_channels, hch _ (by omega), hch _ (by omega)]

/-- Outside the buffer a state of the invariant lists no byte. -/
theorem State.Inv.byte_outside {s : State} (hs : s.Inv) {i : Nat} (hi : s.bufSize ≤ i) : s.byte i = unlistedByte := by
  obtain ⟨-, -, hcells, -⟩ := hs
  exact readCell_unlisted fun x hx heq => by have := hcells x hx; omega

theorem State.Inv.buf_wf {s : State} (hs : s.Inv) : Memory.wf s.buf := by
  obtain ⟨-, hwf, -, -⟩ := hs
  exact hwf

theorem bufSize_eq_mul {s : State} (hm : s.mode = .ready) : s.bufSize = 36 * s.devices.toNat :=
  bufSize_ready hm

/-- The values of the channels leave no freedom to the buffer of the invariant (40_buffer_ops.md R75). -/
theorem buf_eq_of_channels_eq {s t : State} (hs : s.Inv) (ht : t.Inv) (hms : s.mode = .ready) (hmt : t.mode = .ready)
    (hdev : s.devices = t.devices) (hch : ∀ c, c < 24 * s.devices.toNat → s.channel c = t.channel c) :
    s.buf = t.buf := by
  refine wf_ext hs.buf_wf ht.buf_wf fun i => show s.byte i = t.byte i from ?_
  have hsize : s.bufSize = 36 * s.devices.toNat := bufSize_eq_mul hms
  have hsize' : t.bufSize = 36 * s.devices.toNat := hdev ▸ bufSize_eq_mul hmt
  by_cases hi : i < 36 * s.devices.toNat
  · exact byte_eq_of_channels_eq hch hi
  · rw [hs.byte_outside (by omega), ht.byte_outside (by omega)]

/-- While ready every channel has an address of 16 bits (00_scope.md R9). -/
theorem State.Inv.channels_le {s : State} (hs : s.Inv) (hm : s.mode = .ready) : 24 * s.devices.toNat ≤ 65520 := by
  obtain ⟨hcount, -⟩ := hs
  obtain ⟨-, hle⟩ := hcount hm
  have := Config.dMaxChoice.isLt
  simp only [Config.dMax] at hle
  omega

/-- One SET for each channel of the list, of the value that `f` gives it. -/
def assignCommands (f : Nat → Gray) (cs : List Nat) : List Instr :=
  cs.map fun c => .set (BitVec.ofNat 16 c) ((f c).zeroExtend 16)

/-- After SETs of valid channels, one after the other, those channels hold the values assigned and every other its old
one. -/
theorem execAll_assignCommands {s : State} (f : Nat → Gray) {cs : List Nat} (hm : s.mode = .ready)
    (hcs : ∀ c ∈ cs, c < 24 * s.devices.toNat ∧ c < 65536) :
    ∃ t, execAll (assignCommands f cs) s = .next t ∧ t.mode = .ready ∧ t.devices = s.devices ∧
      ∀ c, t.channel c = if c ∈ cs then f c else s.channel c := by
  induction cs generalizing s with
  | nil => exact ⟨s, rfl, hm, rfl, fun _ => rfl⟩
  | cons c cs ih =>
    obtain ⟨⟨hc, hbound⟩, htail⟩ := List.forall_mem_cons.mp hcs
    have hnum : (BitVec.ofNat 16 c).toNat = c := by rw [BitVec.toNat_ofNat]; omega
    obtain ⟨s₁, hexec₁, hm₁, hdev₁, hch₁⟩ :=
      exec_set_channel (c := BitVec.ofNat 16 c) ((f c).zeroExtend 16) hm (hnum.symm ▸ hc)
    obtain ⟨t, hexec, hmt, hdev, hch⟩ := ih hm₁ (hdev₁ ▸ htail)
    refine ⟨t, ?_, hmt, hdev.trans hdev₁, fun c' => ?_⟩
    · simpa only [assignCommands, List.map_cons, execAll, hexec₁] using hexec
    · rw [hch, hch₁, hnum, clamp_zeroExtend]
      by_cases hin : c' ∈ cs
      · simp [hin]
      · by_cases heq : c' = c <;> simp [hin, heq]

-- The statements

/-- Settles O20: SET takes its value only through the clamping. -/
theorem setClampsLargeValues : Obligations.SetClampsLargeValues := by
  intro s c v hv
  show execSet c v s = execSet c 4095 s
  rw [execSet, execSet, clamp_large hv]

/-- Settles O19: the other channels keep their values, which is all that GET answers, and the bytes are those of
`SameOutsideChannel`. -/
theorem setDisturbsNoOtherChannel : Obligations.SetDisturbsNoOtherChannel := by
  intro s c v hm hc
  obtain ⟨t, hexec, hmt, hdev, hch⟩ := exec_set_channel v hm hc
  obtain ⟨hbyte, hhigh, hlow⟩ := exec_set_sameOutside hc hexec
  refine ⟨t, hexec, fun c' hne hc' => ⟨grayData (s.channel c'.toNat), exec_get_valid hm hc', ?_⟩, hbyte, hhigh, hlow⟩
  have hkeep : t.channel c'.toNat = s.channel c'.toNat := by
    rw [hch, if_neg (mt BitVec.eq_of_toNat_eq hne)]
  rw [exec_get_valid hmt (hdev ▸ hc'), hkeep]
  rfl

/-- Settles O22: GET's two equations, with the channel's value as a number. -/
theorem getAssemblesItsByteAndNibble : Obligations.GetAssemblesItsByteAndNibble := by
  intro s c hm
  by_cases hc : c.toNat < 24 * s.devices.toNat
  case neg => rw [if_neg hc]; exact exec_get_invalid hm hc
  case pos =>
    rw [if_pos hc]
    refine ⟨_, exec_get_valid hm hc, fun heven => ?_, fun hodd => ?_⟩
    · rw [grayData_toNat, channel_toNat_even s heven]
    · rw [grayData_toNat, channel_toNat_odd s hodd]

/-- Settles O23: after SET the channel holds the clamped value, and GET answers what the channel holds. -/
theorem getAfterSetReturnsTheValue : Obligations.GetAfterSetReturnsTheValue := by
  intro s c v hm hc
  obtain ⟨t, hexec, hmt, hdev, hch⟩ := exec_set_channel v hm hc
  refine ⟨t, hexec, ?_⟩
  rw [exec_get_valid hmt (hdev ▸ hc), hch, if_pos rfl, grayData_clamp]
  rfl

/-- Settles O24: of GET's two ends one answers a value of 12 bits for a valid channel, the other the sentinel. -/
theorem sentinelOnlyForInvalidChannels : Obligations.SentinelOnlyForInvalidChannels := by
  intro s t c h
  cases exec_next h with
  | load _ hvalid =>
    have hc : c.toNat < 24 * s.devices.toNat := validChannel_iff.mp hvalid
    have hne : grayData (s.channel c.toNat) ≠ 0xFFFF := grayData_ne_sentinel _
    exact ⟨_, answerOk_responses s _, iff_of_false (fun hok => by cases hok) hne,
      iff_of_false hne (Nat.not_le_of_lt hc), fun _ => grayData_le _⟩
  | loadInvalid _ hinvalid =>
    have hc : ¬ c.toNat < 24 * s.devices.toNat := mt validChannel_iff.mpr (by simp [hinvalid])
    exact ⟨_, raiseError_responses s _ _, iff_of_true rfl rfl, iff_of_true rfl (Nat.le_of_not_lt hc),
      fun hlt => absurd hlt hc⟩

/-- Settles O26: equal channels make equal bytes and so equal canonical buffers; one SET for each channel gives any
assignment, as every channel has an address. -/
theorem bufferIsItsChannelValues : Obligations.BufferIsItsChannelValues := by
  refine ⟨fun s t => buf_eq_of_channels_eq, fun s f hs hm => ?_⟩
  have hbound := hs.channels_le hm
  have haddr : ∀ c ∈ List.range (24 * s.devices.toNat), c < 24 * s.devices.toNat ∧ c < 65536 := fun c hc => by
    have hlt := List.mem_range.mp hc
    omega
  obtain ⟨t, hexec, hmt, hdev, hch⟩ := execAll_assignCommands f hm haddr
  refine ⟨_, t, fun i hi => ?_, hexec, hmt, hdev, fun c hc => ?_⟩
  · obtain ⟨c, -, rfl⟩ := List.mem_map.mp hi
    exact ⟨_, _, rfl⟩
  · rw [hch, if_pos (List.mem_range.mpr hc)]

end Sys2Proof.Machine
end

section
/-! PROOFS. 41_chain_ops.md R79 to R84, R91 to R93 and R96: the life cycle of the handle, the pin commands, and the commands
outside their state. -/

namespace Sys2Proof.Machine

-- INIT and TEARDOWN, one equation per case

/-- INIT of 1 to `D_MAX` devices creates the handle (R79). -/
theorem exec_init_fits {s : State} {count : Half} (hm : s.mode = .uninitialized) (hpos : 1 ≤ count.toNat)
    (hcap : count.toNat ≤ Config.dMax) : exec (.init count) s = .next (createHandle count s) := by
  have hne : count ≠ 0 := by
    rintro rfl
    exact absurd hpos (by decide)
  show initWithCapacity Config.dMax count s = _
  simp only [initWithCapacity, hm, if_neg hne, if_neg (Nat.not_lt.mpr hcap)]

/-- INIT of more than `D_MAX` devices answers the capacity error (R80). -/
theorem exec_init_beyond {s : State} {count : Half} (hm : s.mode = .uninitialized) (hcap : Config.dMax < count.toNat) :
    exec (.init count) s = .next (s.raiseError .resourceExhausted 0) := by
  have hne : count ≠ 0 := by
    rintro rfl
    exact Nat.not_lt_zero _ hcap
  show initWithCapacity Config.dMax count s = _
  simp only [initWithCapacity, hm, if_neg hne, if_pos hcap]

theorem exec_init_zero {s : State} (hm : s.mode = .uninitialized) : exec (.init 0) s = .refused .initOfZeroDevices := by
  show initWithCapacity Config.dMax 0 s = _
  simp [initWithCapacity, hm]

theorem exec_init_ready {s : State} (count : Half) (hm : s.mode = .ready) :
    exec (.init count) s = .refused .initWhileReady := by
  show initWithCapacity Config.dMax count s = _
  simp [initWithCapacity, hm]

/-- TEARDOWN releases the handle (R82). -/
theorem exec_teardown_ready {s : State} (hm : s.mode = .ready) :
    exec .teardown s = .next ((releaseHandle s).answerOk 0) :=
  whenReady_ready hm

/-- The commands of `ready` fail the mode test while uninitialized, before any other test (60_exceptions.md R112). -/
theorem exec_dataCommand_uninitialized {i : Instr} {s : State} (hm : s.mode = .uninitialized)
    (hi : isDataCommand i = true) : exec i s = .refused .commandWhileUninitialized := by
  cases i with
  | set | get | flush | enableOutputs | disableOutputs => exact whenReady_uninitialized hm
  | init | teardown | reserved => cases hi

-- The buffer of a new and of a released handle

/-- INIT's zero-fill: a buffer that lists no byte reads as zero everywhere (R79). -/
theorem byte_empty {s : State} (h : s.buf = []) (i : Nat) : s.byte i = 0 := by
  rw [State.byte, h]
  rfl

/-- Without a handle no byte exists. -/
theorem memRead_uninitialized {s : State} (hm : s.mode = .uninitialized) (i : Nat) :
    memRead s i = .error .bufferIndexOutOfRange :=
  memRead_error_iff.mpr (bufSize_uninitialized hm ▸ Nat.zero_le i)

-- The statements

/-- Settles O11: the handle that INIT creates, with its buffer that lists no byte. -/
theorem initCreatesZeroedHandle : Obligations.InitCreatesZeroedHandle := by
  intro s count hm hpos hcap
  exact ⟨createHandle count s, exec_init_fits hm hpos hcap, rfl, bufSize_ready rfl, byte_empty rfl⟩

/-- Settles O12: the capacity error keeps the mode, so that an INIT which fits creates the handle afterwards. -/
theorem initBeyondCapacityLeavesState : Obligations.InitBeyondCapacityLeavesState := by
  intro s count hm hcap
  exact ⟨exec_init_beyond hm hcap, fun fits hpos hfits => ⟨_, exec_init_fits hm hpos hfits, rfl⟩⟩

/-- Settles O13: after the mode test INIT tests for zero devices. -/
theorem initOfZeroDevicesIsRefused : Obligations.InitOfZeroDevicesIsRefused := by
  intro s hm
  exact exec_init_zero hm

/-- Settles O14: the released handle, of which no byte exists. -/
theorem teardownReleasesBuffer : Obligations.TeardownReleasesBuffer := by
  intro s hm
  exact ⟨_, exec_teardown_ready hm, rfl, memRead_uninitialized rfl⟩

/-- Settles O15: INIT creates its handle from the released one as from any other uninitialized state. -/
theorem reinitialisationStartsAfresh : Obligations.ReinitialisationStartsAfresh := by
  intro s count hm hpos hcap
  have hinit : exec (.init count) ((releaseHandle s).answerOk 0) =
      .next (createHandle count ((releaseHandle s).answerOk 0)) := exec_init_fits rfl hpos hcap
  have hexec : execAll [.teardown, .init count] s = .next (createHandle count ((releaseHandle s).answerOk 0)) := by
    simp only [execAll, exec_teardown_ready hm, hinit]
  exact ⟨_, hexec, rfl, rfl, byte_empty rfl, rfl, rfl, by simp⟩

/-- Settles O16: each command's own mode test. -/
theorem commandsOutsideTheirStateAreRefused : Obligations.CommandsOutsideTheirStateAreRefused := by
  intro s
  refine ⟨fun hm => ⟨fun i hi => exec_dataCommand_uninitialized hm hi, ?_⟩, fun hm count => exec_init_ready count hm⟩
  exact whenReady_uninitialized hm

/-- Settles O37: the mode test passed, the pin is driven low without a look at its level. -/
theorem enableOutputsDrivesBlankLow : Obligations.EnableOutputsDrivesBlankLow := by
  intro s hm
  exact whenReady_ready hm

/-- Settles O38: the mode test passed, the pin is driven high without a look at its level. -/
theorem disableOutputsDrivesBlankHigh : Obligations.DisableOutputsDrivesBlankHigh := by
  intro s hm
  exact whenReady_ready hm

end Sys2Proof.Machine
end

section
/-! PROOFS. 41_chain_ops.md R85 to R90: how a FLUSH ends after the bytes answered `ok`, how one that waits goes on, and its
small-step form. -/

namespace Sys2Proof.Machine

-- Sending a byte, one equation per reply

theorem nextReply_cons {s : State} {r : TxReply} {rest : List TxReply} (h : s.replies = r :: rest) :
    s.nextReply = (r, s.setReplies rest) := by
  simp [State.nextReply, h]

theorem sendBytes_of_ok {n : Nat} {s s₁ : State} (hn : n < s.bufSize) (hq : s.nextReply = (.answer .ok, s₁)) :
    sendBytes (n + 1) s = sendBytes n (s₁.emit (.tx (s.byte n) .ok)) := by
  simp only [sendBytes, memRead_eq hn, bind, Except.bind, hq]

theorem sendBytes_of_fail {n : Nat} {s s₁ : State} (hn : n < s.bufSize) (hq : s.nextReply = (.answer .fail, s₁)) :
    sendBytes (n + 1) s =
      .ok (((s₁.emit (.tx (s.byte n) .fail)).raiseError .transportError 0).setFlight none) := by
  simp only [sendBytes, memRead_eq hn, bind, Except.bind, hq]
  rfl

theorem sendBytes_of_notYet {n : Nat} {s s₁ : State} (hn : n < s.bufSize) (hq : s.nextReply = (.notYet, s₁)) :
    sendBytes (n + 1) s = .ok (s₁.setFlight (some (.wait n))) := by
  simp only [sendBytes, memRead_eq hn, bind, Except.bind, hq]
  rfl

/-- The latch pulse that no reset cuts ends the FLUSH with LATCH low (R85). -/
theorem latchPulse_uncut {s : State} (h : s.cutsPulse = false) :
    latchPulse s = { s with
      latch := .low, flight := none,
      trace := s.trace ++ [.pin .latch .high, .pin .latch .low], responses := s.responses ++ [⟨.ok, 0⟩] } := by
  have htrace : s.trace ++ [.pin .latch .high, .pin .latch .low] =
      s.trace ++ [.pin .latch .high] ++ [Event.pin .latch .low] := by simp
  rw [latchPulse, h, htrace]
  rfl

-- FLUSH as a command

theorem exec_flush_ready {s : State} (hm : s.mode = .ready) :
    exec .flush s = toOutcome (sendBytes (bufLength s.devices) (s.drivePin .latch .low)) :=
  whenReady_ready hm

/-- Every byte that FLUSH sends exists, so that the sending comes to an end, and FLUSH with it. -/
theorem exec_flush_total {s : State} (hm : s.mode = .ready) :
    ∃ t, sendBytes (bufLength s.devices) (s.drivePin .latch .low) = .ok t ∧ exec .flush s = .next t := by
  obtain ⟨t, ht⟩ := sendBytes_total (n := bufLength s.devices) (s := s.drivePin .latch .low) (bufSize_ready hm).ge
  exact ⟨t, ht, by rw [exec_flush_ready hm, ht]; rfl⟩

/-- A FLUSH after its first `k` bytes, all answered `ok` (R85). -/
def afterOkBytes (s : State) (k : Nat) (later : List TxReply) : State :=
  { s.drivePin .latch .low with
    trace := s.trace ++ [.pin .latch .low] ++ okEvents s (bufLength s.devices) k
    replies := later }

/-- The bytes answered `ok` are sent, and the FLUSH goes on with the `n` left. -/
theorem exec_flush_ok_run {s : State} {n k : Nat} {later : List TxReply} (hm : s.mode = .ready)
    (hlen : n + k = 36 * s.devices.toNat) (hr : s.replies = List.replicate k (.answer .ok) ++ later) :
    exec .flush s = toOutcome (sendBytes n (afterOkBytes s k later)) := by
  have hbuf : bufLength s.devices = n + k := hlen.symm
  have hrun := sendBytes_ok_run (n := n) (k := k) (s := s.drivePin .latch .low)
    (by rw [driveLatch_bufSize, bufSize_ready hm, hbuf]) hr
  rw [exec_flush_ready hm, hbuf, hrun, afterOkBytes, hbuf]
  rfl

theorem afterOkBytes_bufSize {s : State} {k : Nat} {later : List TxReply} (hm : s.mode = .ready) :
    (afterOkBytes s k later).bufSize = 36 * s.devices.toNat :=
  bufSize_ready (s := afterOkBytes s k later) hm

/-- With byte `n` not answered after the `k` bytes above it, the FLUSH waits there. -/
theorem exec_flush_notYet {s : State} {n k : Nat} {rest : List TxReply} (hm : s.mode = .ready)
    (hlen : n + 1 + k = 36 * s.devices.toNat) (hr : s.replies = List.replicate k (.answer .ok) ++ .notYet :: rest) :
    exec .flush s = .next ((afterOkBytes s k rest).setFlight (some (.wait n))) := by
  have hn : n < (afterOkBytes s k (.notYet :: rest)).bufSize := by
    rw [afterOkBytes_bufSize hm]
    omega
  rw [exec_flush_ok_run hm hlen hr, sendBytes_of_notYet hn (nextReply_cons rfl)]
  rfl

-- A FLUSH that waits

theorem memRead_setFlight (s : State) (f : Option Flight) (i : Nat) : memRead (s.setFlight f) i = memRead s i := rfl

/-- The sending of bytes does not look at the FLUSH in flight, which every way of its ending writes. -/
theorem sendBytes_setFlight (n : Nat) (s : State) (f : Option Flight) : sendBytes n (s.setFlight f) = sendBytes n s := by
  induction n generalizing s with
  | zero =>
    simp only [sendBytes, latchPulse, setFlight_cutsPulse]
    rfl
  | succ n ih =>
    rw [sendBytes, sendBytes, nextReply_setFlight, memRead_setFlight]
    rcases s.nextReply with ⟨(_ | _) | _, s₁⟩
    case answer.ok =>
      have hemit : ∀ e, (s₁.setFlight f).emit e = (s₁.emit e).setFlight f := fun _ => rfl
      simp only [hemit, ih]
    case answer.fail => rfl
    case notYet => rfl

/-- In a waiting FLUSH a reset is due only if it is asserted at once. -/
theorem noReset_of_wait {s : State} {k : Nat} (hf : s.flight = some (.wait k)) (hh : ∀ later, s.host ≠ .reset :: later) :
    s.noReset := by
  refine Option.eq_none_iff_forall_ne_some.mpr fun later hdue => ?_
  rcases resetDue_eq_some_iff.mp hdue with hreset | ⟨_, hnone | hpulse⟩
  · exact hh later hreset
  · simp [hf] at hnone
  · simp [hf] at hpulse

theorem step_wait {s : State} {k : Nat} (hf : s.flight = some (.wait k)) (hr : s.noReset) :
    step s = toOutcome (sendBytes (k + 1) s) :=
  step_inFlight hf hr

/-- Not answered again, the FLUSH waits as it did (R90, last row). -/
theorem step_wait_notYet {s : State} {k : Nat} {later : List TxReply} (hf : s.flight = some (.wait k)) (hr : s.noReset)
    (hk : k < s.bufSize) (hq : s.replies = .notYet :: later) : step s = .next (s.setReplies later) := by
  rw [step_wait hf hr, sendBytes_of_notYet hk (nextReply_cons hq), ← hf]
  rfl

-- R90's table, one equation per row

theorem flushTransition_send (s : State) (i : Nat) :
    flushTransition (s.setFlight (some (.send i))) = .ok (s.setFlight (some (.wait i))) := rfl

theorem flushTransition_ok_last {s s₁ : State} (h : 0 < s.bufSize) (hq : s.nextReply = (.answer .ok, s₁)) :
    flushTransition (s.setFlight (some (.wait 0))) =
      .ok (((s₁.emit (.tx (s.byte 0) .ok)).drivePin .latch .high).setFlight (some .pulse)) := by
  simp only [flushTransition, setFlight_flight, memRead_setFlight, memRead_eq h, bind, Except.bind, nextReply_setFlight, hq]
  rfl

theorem flushTransition_ok_more {s s₁ : State} {j : Nat} (h : j + 1 < s.bufSize)
    (hq : s.nextReply = (.answer .ok, s₁)) :
    flushTransition (s.setFlight (some (.wait (j + 1)))) =
      .ok ((s₁.emit (.tx (s.byte (j + 1)) .ok)).setFlight (some (.send j))) := by
  simp only [flushTransition, setFlight_flight, memRead_setFlight, memRead_eq h, bind, Except.bind, nextReply_setFlight, hq]
  rfl

theorem flushTransition_fail {s s₁ : State} {i : Nat} (h : i < s.bufSize) (hq : s.nextReply = (.answer .fail, s₁)) :
    flushTransition (s.setFlight (some (.wait i))) =
      .ok (((s₁.emit (.tx (s.byte i) .fail)).raiseError .transportError 0).setFlight none) := by
  simp only [flushTransition, setFlight_flight, memRead_setFlight, memRead_eq h, bind, Except.bind, nextReply_setFlight, hq]
  rfl

theorem flushTransition_notYet {s s₁ : State} {i : Nat} (h : i < s.bufSize) (hq : s.nextReply = (.notYet, s₁)) :
    flushTransition (s.setFlight (some (.wait i))) = .ok (s₁.setFlight (some (.wait i))) := by
  simp only [flushTransition, setFlight_flight, memRead_setFlight, memRead_eq h, bind, Except.bind, nextReply_setFlight, hq]
  rfl

theorem flushTransition_pulse (s : State) : flushTransition (s.setFlight (some .pulse)) = .ok (endPulse s) := rfl

-- Several transitions

/-- The transitions of R90's table lead from `s` to `t`. -/
def FlushReaches (s t : State) : Prop := ∃ n, flushTransitions n s = .ok t

theorem FlushReaches.refl (s : State) : FlushReaches s s := ⟨0, rfl⟩

theorem FlushReaches.head {s s₁ t : State} (hstep : flushTransition s = .ok s₁) (h : FlushReaches s₁ t) :
    FlushReaches s t := by
  obtain ⟨n, hn⟩ := h
  refine ⟨n + 1, ?_⟩
  simp only [flushTransitions, hstep, bind, Except.bind, hn]

theorem FlushReaches.single {s t : State} (hstep : flushTransition s = .ok t) : FlushReaches s t :=
  .head hstep (.refl t)

theorem flushTransitions_add {m : Nat} {s t : State} (n : Nat) (h : flushTransitions m s = .ok t) :
    flushTransitions (m + n) s = flushTransitions n t := by
  induction m generalizing s with
  | zero =>
    cases h
    rw [Nat.zero_add]
  | succ m ih =>
    rw [Nat.succ_add]
    simp only [flushTransitions, bind, Except.bind] at h ⊢
    cases hs : flushTransition s with
    | error f => simp [hs] at h
    | ok s₁ =>
      rw [hs] at h
      exact ih h

theorem flushTransitions_idle {s : State} (n : Nat) (h : s.flight = none) : flushTransitions n s = .ok s := by
  induction n with
  | zero => rfl
  | succ n ih => simp only [flushTransitions, flushTransition_idle h, bind, Except.bind, ih]

/-- There is one state in which a FLUSH is over: the transitions are a function, and end in it. -/
theorem FlushReaches.idle_unique {s t u : State} (ht : FlushReaches s t) (hu : FlushReaches s u) (hti : t.flight = none)
    (hui : u.flight = none) : u = t := by
  obtain ⟨m, hm⟩ := ht
  obtain ⟨n, hn⟩ := hu
  have htt : flushTransitions (m + n) s = .ok t := (flushTransitions_add n hm).trans (flushTransitions_idle n hti)
  have huu : flushTransitions (n + m) s = .ok u := (flushTransitions_add m hn).trans (flushTransitions_idle m hui)
  rw [Nat.add_comm, htt] at huu
  exact (Except.ok.inj huu).symm

/-- From the phase `pulse` the table leads to where the latch pulse of FLUSH ends, cut or not. -/
theorem flushReaches_latchPulse (s : State) :
    FlushReaches ((s.drivePin .latch .high).setFlight (some .pulse)) (latchPulse s) := by
  rcases latchPulse_cases s with ⟨_, h⟩ | ⟨_, h⟩ <;> rw [h]
  · exact .single (flushTransition_pulse _)
  · exact .refl _

theorem nextReply_bufSize (s : State) : s.nextReply.2.bufSize = s.bufSize := by
  obtain ⟨_, _, _, _, _, _, _, _, _, hsize, _⟩ := nextReply_frame s
  exact hsize

/-- One byte by the table: a failed or unanswered one ends both forms alike, so that what follows a byte answered `ok` is
all that is left to show. -/
theorem flushReaches_send {i : Nat} {s t : State} (hi : i < s.bufSize) (h : sendBytes (i + 1) s = .ok t)
    (hok : ∀ s₁, s.nextReply = (.answer .ok, s₁) → sendBytes i (s₁.emit (.tx (s.byte i) .ok)) = .ok t →
      FlushReaches (s.setFlight (some (.wait i))) t) :
    FlushReaches (s.setFlight (some (.send i))) t := by
  refine .head (flushTransition_send s i) ?_
  rcases hq : s.nextReply with ⟨(_ | _) | _, s₁⟩
  case answer.ok =>
    rw [sendBytes_of_ok hi hq] at h
    exact hok s₁ hq h
  case answer.fail =>
    rw [sendBytes_of_fail hi hq] at h
    exact .single ((flushTransition_fail hi hq).trans h)
  case notYet =>
    rw [sendBytes_of_notYet hi hq] at h
    exact .single ((flushTransition_notYet hi hq).trans h)

/-- Byte by byte the table leads from the phase `send` to where FLUSH's sending of the bytes ends. -/
theorem flushReaches_sendBytes {i : Nat} {s t : State} (hi : i < s.bufSize) (h : sendBytes (i + 1) s = .ok t) :
    FlushReaches (s.setFlight (some (.send i))) t := by
  induction i generalizing s with
  | zero =>
    refine flushReaches_send hi h fun s₁ hq hend => ?_
    cases hend
    exact .head (flushTransition_ok_last hi hq) (flushReaches_latchPulse _)
  | succ j ih =>
    refine flushReaches_send hi h fun s₁ hq hend => ?_
    have hsize : s₁.bufSize = s.bufSize := by rw [← nextReply_bufSize s, hq]
    exact .head (flushTransition_ok_more hi hq) (ih (by rw [emit_bufSize, hsize]; omega) hend)

-- The statements

/-- Settles O28: all bytes answered `ok`, the FLUSH comes to its latch pulse, which no reset cuts. -/
theorem flushSendsBufferThenPulses : Obligations.FlushSendsBufferThenPulses := by
  intro s rest hm hcut hr
  rw [exec_flush_all_ok hm hr]
  exact congrArg _ (latchPulse_uncut hcut)

/-- Settles O29: after the bytes above `k` the failed byte ends the FLUSH. -/
theorem flushAbortsAtFailedByte : Obligations.FlushAbortsAtFailedByte := by
  intro s k rest hm hk hr
  have hn : k < (afterOkBytes s (36 * s.devices.toNat - 1 - k) (.answer .fail :: rest)).bufSize := by
    rwa [afterOkBytes_bufSize hm]
  rw [exec_flush_ok_run (n := k + 1) hm (by omega) hr, sendBytes_of_fail hn (nextReply_cons rfl)]
  rfl

/-- Settles O30: after the bytes above `k` the unanswered byte leaves the FLUSH waiting. -/
theorem flushWaitsAtUnansweredByte : Obligations.FlushWaitsAtUnansweredByte := by
  intro s k rest hm hk hr
  exact exec_flush_notYet hm (by omega) hr

/-- Settles O31: the sending of the buffer's bytes never faults, and each of its ends is one of those listed. -/
theorem flushAnswersOrWaits : Obligations.FlushAnswersOrWaits := by
  intro s hm
  obtain ⟨t, ht, hexec⟩ := exec_flush_total hm
  obtain ⟨-, k, -, hend⟩ := sendBytes_cases ht
  refine ⟨t, hexec, ?_⟩
  rcases hend with ⟨-, -, hresp, hfl, -⟩ | ⟨-, -, hresp, hfl, hlatch, hcut⟩ | ⟨-, -, hresp, hfl, -⟩ |
    ⟨hk, -, hresp, hfl, -⟩
  case inl => exact .inl ⟨hfl, .ok, .inl rfl, hresp⟩
  case inr.inl => exact .inr (.inr ⟨hcut, hfl, hlatch, hresp⟩)
  case inr.inr.inl => exact .inl ⟨hfl, .transportError, .inr rfl, hresp⟩
  case inr.inr.inr =>
    have hlen : bufLength s.devices = 36 * s.devices.toNat := rfl
    exact .inr (.inl ⟨_, by omega, hfl, hresp⟩)

/-- Settles O32, by induction on the number of steps: each uses up one reply and leaves the rest. -/
theorem silentTransmitterHangsFlush : Obligations.SilentTransmitterHangsFlush := by
  intro s k n rest hr hf hk hq
  induction n generalizing s with
  | zero =>
    obtain rfl : s.replies = rest := hq
    rfl
  | succ n ih =>
    simp only [runSteps, step_wait_notYet hf hr hk hq]
    exact ih (s.setReplies (List.replicate n .notYet ++ rest)) hr hf hk rfl

/-- Settles O33: the step after the wait sends the bytes from the state that the FLUSH with the answer at once passes, but
for the phase, which `sendBytes` does not look at. -/
theorem lateAnswerDoesNotChangeFlush : Obligations.LateAnswerDoesNotChangeFlush := by
  intro s j rest hm hj hhost hr
  have hlen : 36 * s.devices.toNat - 1 - j + 1 + j = 36 * s.devices.toNat := by omega
  refine ⟨_, exec_flush_notYet hm hlen hr, ?_⟩
  have hwait := setFlight_flight (afterOkBytes s j rest) (some (.wait (36 * s.devices.toNat - 1 - j)))
  rw [step_wait hwait (noReset_of_wait hwait hhost), sendBytes_setFlight]
  exact (exec_flush_ok_run (s := { s with replies := List.replicate j (.answer .ok) ++ rest }) hm hlen rfl).symm

/-- Settles O34: `flushReaches_sendBytes` from the last byte, and `FlushReaches.idle_unique`. -/
theorem smallStepFormAgreesWithFlush : Obligations.SmallStepFormAgreesWithFlush := by
  intro s hm hdev
  have hlen : bufLength s.devices - 1 + 1 = bufLength s.devices := by
    simp only [bufLength, Config.bytesPerDevice]
    omega
  have hsize : (s.drivePin .latch .low).bufSize = bufLength s.devices := bufSize_ready hm
  obtain ⟨t, ht, hexec⟩ := exec_flush_total hm
  have hreach : FlushReaches (acceptFlush s) t := flushReaches_sendBytes (by omega) (hlen.symm ▸ ht)
  exact ⟨t, hexec, hreach, fun hidle m u hu hui => hreach.idle_unique ⟨m, hu⟩ hidle hui⟩

-- Two FLUSH commands (R88)

/-- With these answers FLUSH emits these events and returns this response, whatever was emitted and returned before and
whatever replies follow; nothing else changes (R88). -/
def FlushAnswers (s : State) (answers : List TxReply) (events : List Event) (r : Response) : Prop :=
  ∀ (trace : List Event) (responses : List Response) (later : List TxReply),
    exec .flush { s with trace := trace, responses := responses, replies := answers ++ later } =
      .next { s with trace := trace ++ events, responses := responses ++ [r], replies := later }

/-- Two such FLUSH commands, the second on the state that the first left. -/
theorem FlushAnswers.twice {s : State} {answers rest : List TxReply} {events : List Event} {r : Response}
    (h : FlushAnswers s answers events r) (hr : s.replies = answers ++ (answers ++ rest)) :
    ∃ t u : State, exec .flush s = .next t ∧ exec .flush t = .next u ∧
      t = { s with trace := s.trace ++ events, responses := s.responses ++ [r], replies := answers ++ rest } ∧
      u = { s with trace := s.trace ++ events ++ events, responses := s.responses ++ [r] ++ [r], replies := rest } := by
  have hfirst := h s.trace s.responses (answers ++ rest)
  rw [← hr] at hfirst
  exact ⟨_, _, hfirst, h _ _ rest, rfl, rfl⟩

/-- All bytes answered `ok`, with LATCH low and nothing in flight before. -/
theorem flushAnswers_all_ok {s : State} (hm : s.mode = .ready) (hlatch : s.latch = .low) (hf : s.flight = none)
    (hcut : s.cutsPulse = false) :
    FlushAnswers s (List.replicate (36 * s.devices.toNat) (.answer .ok))
      ([.pin .latch .low] ++ okEvents s (36 * s.devices.toNat) (36 * s.devices.toNat) ++
        [.pin .latch .high, .pin .latch .low]) ⟨.ok, 0⟩ := by
  intro trace responses later
  refine (flushSendsBufferThenPulses _ later ?ready ?uncut ?replies).trans ?_
  case ready => exact hm
  case uncut => exact hcut
  case replies => rfl
  simp [hlatch, hf, okEvents, State.byte]

/-- Byte `k` answered `fail`, with LATCH low and nothing in flight before. -/
theorem flushAnswers_fail {s : State} {k : Nat} (hm : s.mode = .ready) (hlatch : s.latch = .low) (hf : s.flight = none)
    (hk : k < 36 * s.devices.toNat) :
    FlushAnswers s (List.replicate (36 * s.devices.toNat - 1 - k) (.answer .ok) ++ [.answer .fail])
      ([.pin .latch .low] ++ okEvents s (36 * s.devices.toNat) (36 * s.devices.toNat - 1 - k) ++
        [.tx (s.byte k) .fail]) ⟨.transportError, 0⟩ := by
  intro trace responses later
  refine (flushAbortsAtFailedByte _ k later ?ready ?byte ?replies).trans ?_
  case ready => exact hm
  case byte => exact hk
  case replies => exact List.append_assoc ..
  simp [hlatch, hf, okEvents, State.byte]

/-- Settles O35: what a FLUSH does with these answers does not depend on what went before, so that it does it twice. -/
theorem flushTwiceEmitsTheSameEvents : Obligations.FlushTwiceEmitsTheSameEvents := by
  intro s answers rest hm hlatch hf hcut hanswers hr
  rcases hanswers with rfl | ⟨k, hk, rfl⟩
  · exact ⟨_, _, (flushAnswers_all_ok hm hlatch hf hcut).twice hr⟩
  · exact ⟨_, _, (flushAnswers_fail hm hlatch hf hk).twice hr⟩

end Sys2Proof.Machine
end

section
/-! PROOFS. 41_chain_ops.md R94: SET, GET and FLUSH with another level of BLANK. -/

namespace Sys2Proof.Machine

-- The operations with another level of BLANK

theorem setBlank_devices (s : State) (b : Level) : (s.setPin .blank b).devices = s.devices := rfl

theorem memRead_setBlank (s : State) (b : Level) (i : Nat) : memRead (s.setPin .blank b) i = memRead s i := rfl

theorem loadChannel_setBlank (s : State) (b : Level) (c : Nat) :
    loadChannel (s.setPin .blank b) c = loadChannel s c := rfl

/-- A byte is written whatever the level of BLANK. -/
theorem memWrite_setBlank (s : State) (b : Level) (i : Nat) (x : Byte) :
    memWrite (s.setPin .blank b) i x = (memWrite s i x).map (·.setPin .blank b) := by
  by_cases h : i < s.bufSize
  · rw [memWrite_eq x h]
    exact memWrite_eq x h
  · have hfault : memWrite s i x = .error .bufferIndexOutOfRange := if_neg h
    rw [hfault]
    exact if_neg h

theorem storeChannel_setBlank (s : State) (b : Level) (c : Nat) (v : Gray) :
    storeChannel (s.setPin .blank b) c v = (storeChannel s c v).map (·.setPin .blank b) := by
  by_cases hc : c % 2 = 0
  · simp only [storeChannel, hc, if_true, memWrite_setBlank]
    cases memWrite s (baseIndex c) (evenByte v) with
    | error f => rfl
    | ok s₁ =>
      simp only [Except.map, bind, Except.bind, memRead_setBlank]
      cases memRead s₁ (baseIndex c + 1) with
      | error f => rfl
      | ok t => exact memWrite_setBlank s₁ b _ _
  · simp only [storeChannel, hc, if_false, memRead_setBlank]
    cases memRead s (baseIndex c) with
    | error f => rfl
    | ok t =>
      simp only [bind, Except.bind, memWrite_setBlank]
      cases memWrite s (baseIndex c) (oddShared t v) with
      | error f => rfl
      | ok s₁ => exact memWrite_setBlank s₁ b _ _

theorem nextReply_setBlank (s : State) (b : Level) :
    (s.setPin .blank b).nextReply = (s.nextReply.1, s.nextReply.2.setPin .blank b) := by
  rcases nextReply_cases s with ⟨r, rest, hr, h⟩ | ⟨hr, h⟩
  · rw [h]
    exact nextReply_cons hr
  · rw [h, State.nextReply, show (s.setPin .blank b).replies = [] from hr]
    rfl

theorem latchPulse_setBlank (s : State) (b : Level) :
    latchPulse (s.setPin .blank b) = (latchPulse s).setPin .blank b := by
  have hcut : (s.setPin .blank b).cutsPulse = s.cutsPulse := rfl
  rw [latchPulse, latchPulse, hcut]
  cases s.cutsPulse <;> rfl

theorem sendBytes_setBlank (n : Nat) (s : State) (b : Level) :
    sendBytes n (s.setPin .blank b) = (sendBytes n s).map (·.setPin .blank b) := by
  induction n generalizing s with
  | zero => rw [sendBytes, sendBytes, latchPulse_setBlank]; rfl
  | succ n ih =>
    rw [sendBytes, sendBytes, nextReply_setBlank, memRead_setBlank]
    cases memRead s n with
    | error f => rfl
    | ok x =>
      rcases s.nextReply with ⟨(_ | _) | _, s₁⟩
      case answer.ok => exact ih (s₁.emit (.tx x .ok))
      case answer.fail => rfl
      case notYet => rfl

-- The outcomes

theorem toOutcome_map (f : State → State) (e : Except Fault State) : toOutcome (e.map f) = mapNext f (toOutcome e) := by
  cases e <;> rfl

/-- The mode test before a meaning that another level of BLANK does not touch. -/
theorem whenReady_setBlank (s : State) (b : Level) (r : Refusal) {o o' : Host.Outcome State Fault Refusal}
    (h : o' = mapNext (·.setPin .blank b) o) :
    whenReady (s.setPin .blank b) r o' = mapNext (·.setPin .blank b) (whenReady s r o) := by
  cases hm : s.mode with
  | ready => rw [whenReady_ready hm, whenReady_ready (s := s.setPin .blank b) hm, h]
  | uninitialized =>
    rw [whenReady_uninitialized hm, whenReady_uninitialized (s := s.setPin .blank b) hm]
    rfl

theorem execSet_setBlank (c v : Half) (s : State) (b : Level) :
    execSet c v (s.setPin .blank b) = mapNext (·.setPin .blank b) (execSet c v s) := by
  refine whenReady_setBlank s b _ ?_
  rw [setBlank_devices, storeChannel_setBlank]
  by_cases hc : validChannel s.devices c = true
  · rw [if_pos hc, if_pos hc]
    cases storeChannel s c.toNat (clamp v) <;> rfl
  · rw [if_neg hc, if_neg hc]
    rfl

theorem execGet_setBlank (c : Half) (s : State) (b : Level) :
    execGet c (s.setPin .blank b) = mapNext (·.setPin .blank b) (execGet c s) := by
  refine whenReady_setBlank s b _ ?_
  rw [setBlank_devices, loadChannel_setBlank]
  by_cases hc : validChannel s.devices c = true
  · rw [if_pos hc, if_pos hc]
    cases loadChannel s c.toNat <;> rfl
  · rw [if_neg hc, if_neg hc]
    rfl

theorem execFlush_setBlank (s : State) (b : Level) :
    execFlush (s.setPin .blank b) = mapNext (·.setPin .blank b) (execFlush s) := by
  refine whenReady_setBlank s b _ ?_
  rw [← toOutcome_map, ← sendBytes_setBlank]
  rfl

-- The statement

/-- Settles O39: the equation of each of the three commands, and of the commands that write BLANK none is among them. -/
theorem blankDoesNotTouchTheDataPath : Obligations.BlankDoesNotTouchTheDataPath := by
  intro s b i hi
  constructor
  · rcases hi with ⟨c, v, rfl⟩ | ⟨c, rfl⟩ | rfl
    · exact execSet_setBlank c v s b
    · exact execGet_setBlank c s b
    · exact execFlush_setBlank s b
  · intro t hexec
    by_contra hne
    rcases (exec_next hexec).blank_change hne with rfl | rfl | ⟨⟨count, rfl⟩, -⟩ <;> simp at hi

end Sys2Proof.Machine
end

section
/-! PROOFS. 60_exceptions.md R104 to R123: no command and no step faults, and what each error status means. -/

namespace Sys2Proof.Machine

-- Outcomes that are no fault

theorem noFault_next (s : State) : NoFault (.next s) := fun _ h => by cases h

theorem noFault_refused (r : Refusal) : NoFault (.refused r) := fun _ h => by cases h

/-- Behind the mode test a meaning has only to be without a fault while ready. -/
theorem noFault_whenReady {s : State} {r : Refusal} {o : Host.Outcome State Fault Refusal}
    (h : s.mode = .ready → NoFault o) : NoFault (whenReady s r o) := by
  cases hm : s.mode with
  | ready => rw [whenReady_ready hm]; exact h hm
  | uninitialized => rw [whenReady_uninitialized hm]; exact noFault_refused r

-- No command faults: a valid channel's bytes and the bytes that FLUSH sends exist

theorem noFault_execInit (count : Half) (s : State) : NoFault (execInit count s) := by
  unfold execInit initWithCapacity
  split
  · exact noFault_refused _
  · split
    · exact noFault_refused _
    · split
      · exact noFault_next _
      · exact noFault_next _

theorem noFault_exec_set (c v : Half) (s : State) : NoFault (exec (.set c v) s) := by
  refine noFault_whenReady fun hm => ?_
  split
  next hc =>
    obtain ⟨m, hstore, _⟩ := storeChannel_spec (clamp v) (validChannel_lt_bufSize hm hc)
    rw [hstore]
    exact noFault_next _
  next => exact noFault_next _

theorem noFault_exec_get (c : Half) (s : State) : NoFault (exec (.get c) s) := by
  refine noFault_whenReady fun hm => ?_
  split
  next hc =>
    rw [loadChannel_channel (validChannel_lt_bufSize hm hc)]
    exact noFault_next _
  next => exact noFault_next _

theorem noFault_exec_flush (s : State) : NoFault (exec .flush s) := by
  refine noFault_whenReady fun hm => ?_
  obtain ⟨t, hsend, _⟩ := exec_flush_total hm
  rw [hsend]
  exact noFault_next t

theorem noFault_exec (i : Instr) (s : State) : NoFault (exec i s) := by
  cases i with
  | init count => exact noFault_execInit count s
  | set c v => exact noFault_exec_set c v s
  | get c => exact noFault_exec_get c s
  | flush => exact noFault_exec_flush s
  | teardown | enableOutputs | disableOutputs => exact noFault_whenReady fun _ => noFault_next _
  | reserved => exact noFault_refused _

-- No step faults: the bytes that a FLUSH in flight has left exist

/-- A FLUSH in flight that agrees with the rest of the state is at an existing byte, so that it goes on. -/
theorem resumeFlight_total {s : State} {f : Flight} (hs : s.FlightInv) (hf : s.flight = some f) :
    ∃ t, resumeFlight f s = .ok t := by
  cases f with
  | send i =>
    obtain ⟨hm, hi, _⟩ := (flightInv_send hf).mp hs
    exact sendBytes_total (n := i + 1) (bufSize_ready hm ▸ hi)
  | wait i =>
    obtain ⟨hm, hi, _⟩ := (flightInv_wait hf).mp hs
    exact sendBytes_total (n := i + 1) (bufSize_ready hm ▸ hi)
  | pulse => exact ⟨endPulse s, rfl⟩

theorem noFault_step {s : State} (hs : s.FlightInv) : NoFault (step s) := by
  cases hdue : s.resetDue with
  | some later => rw [step_reset hdue]; exact noFault_next _
  | none =>
    cases hf : s.flight with
    | some f =>
      obtain ⟨t, hres⟩ := resumeFlight_total hs hf
      rw [step_inFlight hf hdue, hres]
      exact noFault_next t
    | none =>
      rcases hh : s.host with _ | ⟨w | _ | _, later⟩
      case cons.command => rw [step_command hf hh]; exact noFault_exec _ _
      all_goals
        simp only [step, hdue, hf, hh]
        exact noFault_next s

-- The status that a command answers

/-- From `s` to `t` one response is returned, with this status. -/
def AnswersWith (s t : State) (e : Status) : Prop := ∃ d, t.responses = s.responses ++ [⟨e, d⟩]

theorem answersWith_iff {s t : State} {r : Response} {e : Status} (h : t.responses = s.responses ++ [r]) :
    AnswersWith s t e ↔ r.status = e := by
  obtain ⟨st, d⟩ := r
  simp [AnswersWith, h]

theorem not_answersWith_of_silent {s t : State} {e : Status} (h : t.responses = s.responses) : ¬ AnswersWith s t e := by
  simp [AnswersWith, h]

-- The last event of a FLUSH

/-- The last event is a byte answered `fail` (60_exceptions.md R108). -/
def EndsInFailedByte (es : List Event) : Prop := ∃ b, es.getLast? = some (.tx b .fail)

theorem endsInFailedByte_concat_fail (es : List Event) (b : Byte) : EndsInFailedByte (es ++ [.tx b .fail]) :=
  ⟨b, List.getLast?_concat⟩

/-- With no failed byte in a list behind it, what ended in none still ends in none. -/
theorem not_endsInFailedByte_append {es es' : List Event} (h : ¬ EndsInFailedByte es) (h' : NoFailedByte es') :
    ¬ EndsInFailedByte (es ++ es') := by
  rintro ⟨b, hb⟩
  rw [List.getLast?_append, Option.or_eq_some_iff] at hb
  rcases hb with hlast | ⟨_, hlast⟩
  · exact h' b (List.mem_of_getLast? hlast)
  · exact h ⟨b, hlast⟩

/-- Bytes sent end in a failed byte exactly when TransportError is answered; the only other answer is OK. -/
theorem SendEnd.status {n k : Nat} {s t : State} (h : SendEnd n k s t) (hs : ¬ EndsInFailedByte s.trace) :
    (AnswersWith s t .transportError ↔ EndsInFailedByte t.trace) ∧
    ∀ e, AnswersWith s t e → e = .ok ∨ e = .transportError := by
  have hsent : ¬ EndsInFailedByte (s.trace ++ okEvents s n k) :=
    not_endsInFailedByte_append hs (okEvents_noFailedByte s n k)
  rcases h with ⟨_, htr, hresp, _⟩ | ⟨_, htr, hresp, _⟩ | ⟨_, htr, hresp, _⟩ | ⟨_, htr, hresp, _⟩ <;> rw [htr]
  case inl =>
    have hpulse := not_endsInFailedByte_append hsent
      (OnlyPins.noFailedByte (es := [.pin .latch .high, .pin .latch .low]) (by simp [OnlyPins]))
    exact ⟨iff_of_false (mt (answersWith_iff hresp).mp (by decide)) hpulse,
      fun _ he => .inl ((answersWith_iff hresp).mp he).symm⟩
  case inr.inl =>
    have hpulse := not_endsInFailedByte_append hsent
      (OnlyPins.noFailedByte (es := [.pin .latch .high]) (by simp [OnlyPins]))
    exact ⟨iff_of_false (not_answersWith_of_silent hresp) hpulse, fun _ he => absurd he (not_answersWith_of_silent hresp)⟩
  case inr.inr.inl =>
    exact ⟨iff_of_true ⟨_, hresp⟩ (endsInFailedByte_concat_fail _ _),
      fun _ he => .inr ((answersWith_iff hresp).mp he).symm⟩
  case inr.inr.inr =>
    exact ⟨iff_of_false (not_answersWith_of_silent hresp) hsent, fun _ he => absurd he (not_answersWith_of_silent hresp)⟩

/-- FLUSH drives LATCH low before the first byte, so that a failed byte at the end of the trace is one of its own. -/
theorem flush_status {n : Nat} {s t : State} (h : sendBytes n (s.drivePin .latch .low) = .ok t) :
    (AnswersWith s t .transportError ↔ EndsInFailedByte t.trace) ∧
    ∀ e, AnswersWith s t e → e = .ok ∨ e = .transportError := by
  obtain ⟨_, k, _, hend⟩ := sendBytes_cases h
  exact hend.status (s := s.drivePin .latch .low) (by simp [EndsInFailedByte])

-- The cause of each error

theorem validChannel_false_iff {d c : Half} : validChannel d c = false ↔ 24 * d.toNat ≤ c.toNat := by
  rw [← Bool.not_eq_true, validChannel_iff, Nat.not_lt]

/-- InvalidArgument is answered for SET and GET of an invalid channel (R104). -/
theorem ExecEnd.invalidArgument_iff {i : Instr} {s t : State} (h : ExecEnd i s t) :
    AnswersWith s t .invalidArgument ↔
      ∃ c : Half, 24 * s.devices.toNat ≤ c.toNat ∧ ((∃ v, i = .set c v) ∨ i = .get c) := by
  cases h with
  | storeInvalid _ hc => exact iff_of_true ⟨_, rfl⟩ ⟨_, validChannel_false_iff.mp hc, .inl ⟨_, rfl⟩⟩
  | loadInvalid _ hc => exact iff_of_true ⟨_, rfl⟩ ⟨_, validChannel_false_iff.mp hc, .inr rfl⟩
  | store _ hc | load _ hc => simp [AnswersWith, ← validChannel_false_iff, hc]
  | flush _ hsend =>
    obtain ⟨_, hstatus⟩ := flush_status hsend
    exact iff_of_false (fun he => by simpa using hstatus _ he) (by simp)
  | _ => simp [AnswersWith]

/-- ResourceExhausted is answered for INIT beyond the capacity (R105). -/
theorem ExecEnd.resourceExhausted_iff {i : Instr} {s t : State} (h : ExecEnd i s t) :
    AnswersWith s t .resourceExhausted ↔ ∃ count, i = .init count ∧ Config.dMax < count.toNat := by
  cases h with
  | noCapacity _ hcap => exact iff_of_true ⟨_, rfl⟩ ⟨_, rfl, hcap⟩
  | create _ _ hcap => simp [AnswersWith, hcap]
  | flush _ hsend =>
    obtain ⟨_, hstatus⟩ := flush_status hsend
    exact iff_of_false (fun he => by simpa using hstatus _ he) (by simp)
  | _ => simp [AnswersWith]

/-- TransportError is answered for a FLUSH that ends at a byte answered `fail` (R108). -/
theorem ExecEnd.transportError_iff {i : Instr} {s t : State} (h : ExecEnd i s t) :
    AnswersWith s t .transportError ↔ i = .flush ∧ EndsInFailedByte t.trace := by
  cases h with
  | flush _ hsend =>
    obtain ⟨htransport, _⟩ := flush_status hsend
    rw [htransport, and_iff_right rfl]
  | _ => simp [AnswersWith]

-- What an error leaves

/-- GET answers InvalidArgument with the sentinel (R104). -/
theorem ExecEnd.get_invalidArgument {c : Half} {s t : State} (h : ExecEnd (.get c) s t)
    (he : AnswersWith s t .invalidArgument) : t.responses = s.responses ++ [⟨.invalidArgument, Config.sentinel⟩] := by
  cases h with
  | load => simp [AnswersWith] at he
  | loadInvalid => rfl

/-- An error that is raised before anything is written leaves all but the responses (R104, R105). -/
theorem ExecEnd.error_frame {i : Instr} {s t : State} {e : Status} (h : ExecEnd i s t) (he : AnswersWith s t e)
    (hst : e = .invalidArgument ∨ e = .resourceExhausted) : t = { s with responses := t.responses } := by
  cases h with
  | noCapacity | storeInvalid | loadInvalid => rfl
  | flush _ hsend =>
    obtain ⟨_, hstatus⟩ := flush_status hsend
    rcases hst with rfl | rfl <;> simpa using hstatus _ he
  | _ =>
    obtain rfl := (answersWith_iff rfl).mp he
    simp at hst

-- The statements

/-- Settles O42: `noFault_exec` for the commands, and for the step the invariant's part on the FLUSH in flight. -/
theorem blockNeverFaults : Obligations.BlockNeverFaults :=
  ⟨noFault_exec, fun _ hs => noFault_step hs.flightInv⟩

/-- Settles O43: the cause of each error, case by case over the ways in which a command can answer. -/
theorem errorsExactlyForTheirCauses : Obligations.ErrorsExactlyForTheirCauses := by
  intro i s t hexec
  have hend : ExecEnd i s t := exec_next hexec
  refine ⟨hend.invalidArgument_iff, ?_, hend.resourceExhausted_iff, hend.transportError_iff, ?_⟩
  · rintro ⟨c, rfl⟩ he
    exact hend.get_invalidArgument he
  · rintro ⟨e, d, hst, hresp⟩
    exact hend.error_frame ⟨d, hresp⟩ hst

end Sys2Proof.Machine
end

section
/-! PROOFS. 70_reset_and_hazards.md R125, R126, R140 and R144: the step with nothing to do, the number of events of each
command, and the reset in the latch pulse. -/

namespace Sys2Proof.Machine

-- The step with nothing to do

theorem step_idle {s : State} (hf : s.flight = none) (hh : s.host = []) : step s = .next s := by
  simp [step, resetDue_nil hh, hf, hh]

-- The number of events

theorem okEvents_length (s : State) (n k : Nat) : (okEvents s n k).length = k := by simp [okEvents]

/-- Sending `n` bytes with the answer OK emits all of them and the two pin writes of the pulse. -/
theorem SendEnd.trace_length_of_ok {n k : Nat} {s t : State} (h : SendEnd n k s t)
    (hok : t.responses = s.responses ++ [⟨.ok, 0⟩]) : t.trace.length = s.trace.length + (n + 2) := by
  rcases h with ⟨rfl, htr, _⟩ | ⟨_, _, hresp, _⟩ | ⟨_, _, hresp, _⟩ | ⟨_, _, hresp, _⟩
  case inl =>
    change t.trace = s.trace ++ okEvents s k k ++ _ at htr
    simp [htr, okEvents_length]
  all_goals simp [hresp] at hok

/-- Sending `n` bytes with the answer TransportError ends at a byte `b` answered `fail`; the events are the bytes from
`n-1` down to that one. -/
theorem SendEnd.failed_byte {n k : Nat} {s t : State} (h : SendEnd n k s t)
    (herr : t.responses = s.responses ++ [⟨.transportError, 0⟩]) :
    ∃ b < n, t.trace.getLast? = some (.tx (s.byte b) .fail) ∧ t.trace.length = s.trace.length + (n - b) := by
  rcases h with ⟨_, _, hresp, _⟩ | ⟨_, _, hresp, _⟩ | ⟨hk, htr, _⟩ | ⟨_, _, hresp, _⟩
  case inr.inr.inl =>
    change t.trace = s.trace ++ okEvents s n k ++ _ at htr
    refine ⟨n - 1 - k, by omega, by rw [htr, List.getLast?_concat], ?_⟩
    simp only [htr, List.length_append, okEvents_length, List.length_singleton]
    omega
  all_goals simp [hresp] at herr

/-- FLUSH adds `Pin(LATCH,0)` to the events of the sending (R85). -/
theorem flush_trace_length_of_ok {n : Nat} {s t : State} (h : sendBytes n (s.drivePin .latch .low) = .ok t)
    (hok : t.responses = s.responses ++ [⟨.ok, 0⟩]) : t.trace.length = s.trace.length + (n + 3) := by
  obtain ⟨_, k, _, hend⟩ := sendBytes_cases h
  have hlen := hend.trace_length_of_ok hok
  rw [driveLatch_trace, List.length_append, List.length_singleton] at hlen
  omega

theorem flush_failed_byte {n : Nat} {s t : State} (h : sendBytes n (s.drivePin .latch .low) = .ok t)
    (herr : t.responses = s.responses ++ [⟨.transportError, 0⟩]) :
    ∃ b < n, t.trace.getLast? = some (.tx (s.byte b) .fail) ∧ t.trace.length = s.trace.length + (n - b + 1) := by
  obtain ⟨_, k, _, hend⟩ := sendBytes_cases h
  obtain ⟨b, hb, hlast, hlen⟩ := hend.failed_byte herr
  rw [driveLatch_trace, List.length_append, List.length_singleton] at hlen
  exact ⟨b, hb, hlast, by omega⟩

-- The reset in the latch pulse

theorem cutsPulse_of_resetInPulse {s : State} {later : List HostInput} (h : s.host = .resetInPulse :: later) :
    s.cutsPulse = true := by
  simp [State.cutsPulse, h]

/-- The latch pulse that a reset cuts leaves LATCH high and answers nothing (R126). -/
theorem latchPulse_cut {s : State} (h : s.cutsPulse = true) :
    latchPulse s = (s.drivePin .latch .high).setFlight (some .pulse) := by
  simp [latchPulse, h]

/-- Every byte answered `ok`, FLUSH stays in the pulse that a reset cuts (R126). -/
theorem exec_flush_cut {s : State} {rest : List TxReply} (hm : s.mode = .ready) (hcut : s.cutsPulse = true)
    (hr : s.replies = List.replicate (bufLength s.devices) (.answer .ok) ++ rest) :
    exec .flush s = .next (((afterOkBytes s (bufLength s.devices) rest).drivePin .latch .high).setFlight (some .pulse)) :=
  (exec_flush_all_ok hm hr).trans (congrArg _ (latchPulse_cut hcut))

/-- In the pulse the reset that was to fall there is taken. -/
theorem step_pulse_reset {s : State} {later : List HostInput} (hf : s.flight = some .pulse)
    (hh : s.host = .resetInPulse :: later) : step s = .next (hardwareReset later s) :=
  step_reset (resetDue_eq_some_iff.mpr (.inr ⟨hh, .inr hf⟩))

-- The statements

/-- Settles O9: no reset is due, no FLUSH goes on and no command is accepted. -/
theorem idleBlockStays : Obligations.IdleBlockStays := by
  intro s hf hh
  exact step_idle hf hh

/-- Settles O49: the events of each way in which a command can end, FLUSH's by the bytes that it sent. -/
theorem eventCountsOfCommands : Obligations.EventCountsOfCommands := by
  intro i s t hexec
  cases exec_next hexec with
  | create | enable | disable => simp
  | noCapacity hm => simp [hm]
  | flush _ hsend => exact ⟨flush_trace_length_of_ok hsend, flush_failed_byte hsend⟩
  | release | store | storeInvalid | load | loadInvalid => rfl

/-- Settles O50: all bytes answered `ok`, the FLUSH comes to its pulse, which the reset cuts, and the next step takes that
reset. -/
theorem resetInPulseReturnsLatchLow : Obligations.ResetInPulseReturnsLatchLow := by
  intro s rest later hm hh hr
  exact ⟨_, _, exec_flush_cut hm (cutsPulse_of_resetInPulse hh) hr, rfl, step_pulse_reset rfl hh, rfl, rfl, rfl, rfl, rfl, rfl, rfl, rfl, rfl⟩

end Sys2Proof.Machine
end
